-- ==== Sys2Proof/Word.lean ====
section
/-! DEFINITION. The word types: the 64-bit command word of spec/30_encoding.md R90, the byte a transport
may carry it in (20_memory.md R67), and the exact numbers of the signal path. -/

namespace Sys2Proof

/-- A command word (R90): one 64-bit word, presented whole. -/
abbrev Word := BitVec 64

/-- One byte of a serialised command word (R67). -/
abbrev Byte := BitVec 8

/-- The exact numbers that hold the state's numbers: rationals, in which `CFG.NUM.T` is the set of values of
`CFG.NUM.rnd` (R9). The rules are written over every ordered field `X` with a floor, the reals of the reference
instance among them; the machine runs them at this one, so that its state is data. Log entry 1. -/
abbrev Scalar := Rat

end Sys2Proof
end

