-- ==== Sys2Proof/Syntax.lean ====
section
/-! DEFINITION. The commands: one constructor per row of spec/opcode_table.json (30_encoding.md R96, R97). A Q
or E(n) operand is kept as the 32 bits of `val` (R93, R94); a note and a preset index are numbers (R95, R105);
the bits a format does not read are not part of a command (R91, R98). -/

namespace Sys2Proof

inductive Instr where
  /-- `NOP`, op 0x00: no operation (R100). -/
  | nop
  /-- `TICK`, op 0x01: produce one stereo frame (R221). -/
  | tick
  /-- `NOTE_ON`, op 0x02: `note = idx[6:0]`, `velocity` a Q operand (R217). -/
  | noteOn (note : Nat) (velocity : BitVec 32)
  /-- `NOTE_OFF`, op 0x03: `note = idx[6:0]` (R218). -/
  | noteOff (note : Nat)
  /-- `ALL_NOTES_OFF`, op 0x04: release every active voice (R219). -/
  | allNotesOff
  /-- `LOAD_PRESET`, op 0x05: `index = idx` (R220). -/
  | loadPreset (index : Nat)
  /-- `SETP.MIX_SINE`, id 0x00, operand Q (R266). -/
  | setpMixSine (val : BitVec 32)
  /-- `SETP.MIX_TRI`, id 0x01, operand Q (R267). -/
  | setpMixTri (val : BitVec 32)
  /-- `SETP.MIX_SAW`, id 0x02, operand Q (R268). -/
  | setpMixSaw (val : BitVec 32)
  /-- `SETP.MIX_SQUARE`, id 0x03, operand Q (R269). -/
  | setpMixSquare (val : BitVec 32)
  /-- `SETP.MIX_NOISE`, id 0x04, operand Q (R270). -/
  | setpMixNoise (val : BitVec 32)
  /-- `SETP.OSC_MIX`, id 0x05, operand Q (R271). -/
  | setpOscMix (val : BitVec 32)
  /-- `SETP.CUTOFF`, id 0x08, operand Q (R272). -/
  | setpCutoff (val : BitVec 32)
  /-- `SETP.RESONANCE`, id 0x09, operand Q (R273). -/
  | setpResonance (val : BitVec 32)
  /-- `SETP.DRIVE`, id 0x0A, operand Q (R274). -/
  | setpDrive (val : BitVec 32)
  /-- `SETP.FILTER_MODE`, id 0x0B, operand E(4) (R275). -/
  | setpFilterMode (val : BitVec 32)
  /-- `SETP.FILTER_TYPE`, id 0x0C, operand E(2) (R276). -/
  | setpFilterType (val : BitVec 32)
  /-- `SETP.ENV_DEPTH`, id 0x0D, operand Q (R277). -/
  | setpEnvDepth (val : BitVec 32)
  /-- `SETP.AMP_ATTACK`, id 0x10, operand Q (R278). -/
  | setpAmpAttack (val : BitVec 32)
  /-- `SETP.AMP_DECAY`, id 0x11, operand Q (R279). -/
  | setpAmpDecay (val : BitVec 32)
  /-- `SETP.AMP_SUSTAIN`, id 0x12, operand Q (R280). -/
  | setpAmpSustain (val : BitVec 32)
  /-- `SETP.AMP_RELEASE`, id 0x13, operand Q (R281). -/
  | setpAmpRelease (val : BitVec 32)
  /-- `SETP.FLT_ATTACK`, id 0x14, operand Q (R282). -/
  | setpFltAttack (val : BitVec 32)
  /-- `SETP.FLT_DECAY`, id 0x15, operand Q (R283). -/
  | setpFltDecay (val : BitVec 32)
  /-- `SETP.FLT_SUSTAIN`, id 0x16, operand Q (R284). -/
  | setpFltSustain (val : BitVec 32)
  /-- `SETP.FLT_RELEASE`, id 0x17, operand Q (R285). -/
  | setpFltRelease (val : BitVec 32)
  /-- `SETP.SEC_MODE`, id 0x18, operand E(3) (R286). -/
  | setpSecMode (val : BitVec 32)
  /-- `SETP.SEC_INDEX`, id 0x19, operand Q (R287). -/
  | setpSecIndex (val : BitVec 32)
  /-- `SETP.SEC_RATIO`, id 0x1A, operand Q (R288). -/
  | setpSecRatio (val : BitVec 32)
  /-- `SETP.SEC_SHAPE`, id 0x1B, operand Q (R289). -/
  | setpSecShape (val : BitVec 32)
  /-- `SETP.SEC_LEVEL`, id 0x1C, operand Q (R290). -/
  | setpSecLevel (val : BitVec 32)
  /-- `SETP.LFO_RATE`, id 0x20, operand Q (R296). -/
  | setpLfoRate (val : BitVec 32)
  /-- `SETP.LFO_RATE_NORM`, id 0x21, operand Q (R297). -/
  | setpLfoRateNorm (val : BitVec 32)
  /-- `SETP.LFO_SHAPE`, id 0x22, operand E(6) (R298). -/
  | setpLfoShape (val : BitVec 32)
  /-- `SETP.LFO_DEPTH`, id 0x23, operand Q (R299). -/
  | setpLfoDepth (val : BitVec 32)
  /-- `SETP.MASTER_VOLUME`, id 0x28, operand Q (R300). -/
  | setpMasterVolume (val : BitVec 32)
  /-- `SETP.CHORUS_RATE`, id 0x30, operand Q (R301). -/
  | setpChorusRate (val : BitVec 32)
  /-- `SETP.CHORUS_DEPTH`, id 0x31, operand Q (R302). -/
  | setpChorusDepth (val : BitVec 32)
  /-- `SETP.CHORUS_MIX`, id 0x32, operand Q (R303). -/
  | setpChorusMix (val : BitVec 32)
  /-- `SETP.DELAY_TIME`, id 0x38, operand Q (R304). -/
  | setpDelayTime (val : BitVec 32)
  /-- `SETP.DELAY_FEEDBACK`, id 0x39, operand Q (R305). -/
  | setpDelayFeedback (val : BitVec 32)
  /-- `SETP.DELAY_MIX`, id 0x3A, operand Q (R306). -/
  | setpDelayMix (val : BitVec 32)
  /-- `SETP.REVERB_DECAY`, id 0x40, operand Q (R307). -/
  | setpReverbDecay (val : BitVec 32)
  /-- `SETP.REVERB_MIX`, id 0x41, operand Q (R308). -/
  | setpReverbMix (val : BitVec 32)
  /-- `LFO_SYNC`, op 0x07: LFO phase to 0 (R166). -/
  | lfoSync
  /-- `FX_CLEAR`, op 0x08: `mask = idx[2:0]`: chorus, delay, reverb (R252). -/
  | fxClear (mask : BitVec 3)
deriving DecidableEq, Repr

/-- The row's mnemonic in spec/opcode_table.json (R96, R97). -/
def Instr.mnemonic : Instr → String
  | .nop => "NOP"
  | .tick => "TICK"
  | .noteOn _ _ => "NOTE_ON"
  | .noteOff _ => "NOTE_OFF"
  | .allNotesOff => "ALL_NOTES_OFF"
  | .loadPreset _ => "LOAD_PRESET"
  | .setpMixSine _ => "SETP.MIX_SINE"
  | .setpMixTri _ => "SETP.MIX_TRI"
  | .setpMixSaw _ => "SETP.MIX_SAW"
  | .setpMixSquare _ => "SETP.MIX_SQUARE"
  | .setpMixNoise _ => "SETP.MIX_NOISE"
  | .setpOscMix _ => "SETP.OSC_MIX"
  | .setpCutoff _ => "SETP.CUTOFF"
  | .setpResonance _ => "SETP.RESONANCE"
  | .setpDrive _ => "SETP.DRIVE"
  | .setpFilterMode _ => "SETP.FILTER_MODE"
  | .setpFilterType _ => "SETP.FILTER_TYPE"
  | .setpEnvDepth _ => "SETP.ENV_DEPTH"
  | .setpAmpAttack _ => "SETP.AMP_ATTACK"
  | .setpAmpDecay _ => "SETP.AMP_DECAY"
  | .setpAmpSustain _ => "SETP.AMP_SUSTAIN"
  | .setpAmpRelease _ => "SETP.AMP_RELEASE"
  | .setpFltAttack _ => "SETP.FLT_ATTACK"
  | .setpFltDecay _ => "SETP.FLT_DECAY"
  | .setpFltSustain _ => "SETP.FLT_SUSTAIN"
  | .setpFltRelease _ => "SETP.FLT_RELEASE"
  | .setpSecMode _ => "SETP.SEC_MODE"
  | .setpSecIndex _ => "SETP.SEC_INDEX"
  | .setpSecRatio _ => "SETP.SEC_RATIO"
  | .setpSecShape _ => "SETP.SEC_SHAPE"
  | .setpSecLevel _ => "SETP.SEC_LEVEL"
  | .setpLfoRate _ => "SETP.LFO_RATE"
  | .setpLfoRateNorm _ => "SETP.LFO_RATE_NORM"
  | .setpLfoShape _ => "SETP.LFO_SHAPE"
  | .setpLfoDepth _ => "SETP.LFO_DEPTH"
  | .setpMasterVolume _ => "SETP.MASTER_VOLUME"
  | .setpChorusRate _ => "SETP.CHORUS_RATE"
  | .setpChorusDepth _ => "SETP.CHORUS_DEPTH"
  | .setpChorusMix _ => "SETP.CHORUS_MIX"
  | .setpDelayTime _ => "SETP.DELAY_TIME"
  | .setpDelayFeedback _ => "SETP.DELAY_FEEDBACK"
  | .setpDelayMix _ => "SETP.DELAY_MIX"
  | .setpReverbDecay _ => "SETP.REVERB_DECAY"
  | .setpReverbMix _ => "SETP.REVERB_MIX"
  | .lfoSync => "LFO_SYNC"
  | .fxClear _ => "FX_CLEAR"

end Sys2Proof
end

