-- ==== Sys2Proof/WellFormed.lean ====
section
/-! DEFINITION. Which commands are well formed: those whose operands fit the fields of the command word
(spec/30_encoding.md R90, R95, R105). -/

namespace Sys2Proof

/-- A note is 0..127 (R95) and a preset index 0..255 (R105); every other operand is a bit field of the right
width, or there is none. -/
def Instr.wellFormed : Instr → Bool
  | .nop => true
  | .tick => true
  | .noteOn note _ => note < 128
  | .noteOff note => note < 128
  | .allNotesOff => true
  | .loadPreset index => index < 256
  | .setpMixSine _ => true
  | .setpMixTri _ => true
  | .setpMixSaw _ => true
  | .setpMixSquare _ => true
  | .setpMixNoise _ => true
  | .setpOscMix _ => true
  | .setpCutoff _ => true
  | .setpResonance _ => true
  | .setpDrive _ => true
  | .setpFilterMode _ => true
  | .setpFilterType _ => true
  | .setpEnvDepth _ => true
  | .setpAmpAttack _ => true
  | .setpAmpDecay _ => true
  | .setpAmpSustain _ => true
  | .setpAmpRelease _ => true
  | .setpFltAttack _ => true
  | .setpFltDecay _ => true
  | .setpFltSustain _ => true
  | .setpFltRelease _ => true
  | .setpSecMode _ => true
  | .setpSecIndex _ => true
  | .setpSecRatio _ => true
  | .setpSecShape _ => true
  | .setpSecLevel _ => true
  | .setpLfoRate _ => true
  | .setpLfoRateNorm _ => true
  | .setpLfoShape _ => true
  | .setpLfoDepth _ => true
  | .setpMasterVolume _ => true
  | .setpChorusRate _ => true
  | .setpChorusDepth _ => true
  | .setpChorusMix _ => true
  | .setpDelayTime _ => true
  | .setpDelayFeedback _ => true
  | .setpDelayMix _ => true
  | .setpReverbDecay _ => true
  | .setpReverbMix _ => true
  | .lfoSync => true
  | .fxClear _ => true

end Sys2Proof
end

