-- ==== Sys2Proof/Decode.lean ====
section
/-! DEFINITION. The decoder, total on 64-bit words, and after it the encoder, the byte order of a serialised
word, the assembler's number encoding and the pseudo-commands (spec/30_encoding.md R90 to R103, 20_memory.md
R67). -/

namespace Sys2Proof

/-! ## The fields of a command word (R90) -/

/-- `op = w[63:56]`. -/
def opField (w : Word) : BitVec 8 := w.extractLsb' 56 8
/-- `idx = w[55:48]`. -/
def idxField (w : Word) : BitVec 8 := w.extractLsb' 48 8
/-- `rsv = w[47:32]`, read by no format (R91, R98). -/
def rsvField (w : Word) : BitVec 16 := w.extractLsb' 32 16
/-- `val = w[31:0]`. -/
def valField (w : Word) : BitVec 32 := w.extractLsb' 0 32
/-- The note operand `idx[6:0]`; `idx[7]` is ignored (R95). -/
def noteField (w : Word) : Nat := (w.extractLsb' 48 7).toNat
/-- The preset index operand `zext_8(idx)` (R105). -/
def indexField (w : Word) : Nat := (idxField w).toNat
/-- The effect mask operand `idx[2:0]`; `idx[7:3]` is ignored (R105). -/
def maskField (w : Word) : BitVec 3 := w.extractLsb' 48 3

/-- Why a word is no command: the reserved encodings of R99, by name. -/
inductive Reserved where
  /-- An `op` in 0x09..0xFF. -/
  | opcode (op : BitVec 8)
  /-- `SETP` with an `idx` that is none of the 38 parameter ids. -/
  | paramId (id : BitVec 8)
deriving DecidableEq, Repr

/-- The `SETP` sub-map: the parameter id `idx` selects the row (R97). -/
def decodeSetp (id : BitVec 8) (val : BitVec 32) : Except Reserved Instr :=
  match id.toNat with
  | 0x00 => .ok (.setpMixSine val)
  | 0x01 => .ok (.setpMixTri val)
  | 0x02 => .ok (.setpMixSaw val)
  | 0x03 => .ok (.setpMixSquare val)
  | 0x04 => .ok (.setpMixNoise val)
  | 0x05 => .ok (.setpOscMix val)
  | 0x08 => .ok (.setpCutoff val)
  | 0x09 => .ok (.setpResonance val)
  | 0x0A => .ok (.setpDrive val)
  | 0x0B => .ok (.setpFilterMode val)
  | 0x0C => .ok (.setpFilterType val)
  | 0x0D => .ok (.setpEnvDepth val)
  | 0x10 => .ok (.setpAmpAttack val)
  | 0x11 => .ok (.setpAmpDecay val)
  | 0x12 => .ok (.setpAmpSustain val)
  | 0x13 => .ok (.setpAmpRelease val)
  | 0x14 => .ok (.setpFltAttack val)
  | 0x15 => .ok (.setpFltDecay val)
  | 0x16 => .ok (.setpFltSustain val)
  | 0x17 => .ok (.setpFltRelease val)
  | 0x18 => .ok (.setpSecMode val)
  | 0x19 => .ok (.setpSecIndex val)
  | 0x1A => .ok (.setpSecRatio val)
  | 0x1B => .ok (.setpSecShape val)
  | 0x1C => .ok (.setpSecLevel val)
  | 0x20 => .ok (.setpLfoRate val)
  | 0x21 => .ok (.setpLfoRateNorm val)
  | 0x22 => .ok (.setpLfoShape val)
  | 0x23 => .ok (.setpLfoDepth val)
  | 0x28 => .ok (.setpMasterVolume val)
  | 0x30 => .ok (.setpChorusRate val)
  | 0x31 => .ok (.setpChorusDepth val)
  | 0x32 => .ok (.setpChorusMix val)
  | 0x38 => .ok (.setpDelayTime val)
  | 0x39 => .ok (.setpDelayFeedback val)
  | 0x3A => .ok (.setpDelayMix val)
  | 0x40 => .ok (.setpReverbDecay val)
  | 0x41 => .ok (.setpReverbMix val)
  | _ => .error (.paramId id)

/-- The decoder (R96). Every word is a command or a reserved word (R99). -/
def decode (w : Word) : Except Reserved Instr :=
  match (opField w).toNat with
  | 0x00 => .ok .nop
  | 0x01 => .ok .tick
  | 0x02 => .ok (.noteOn (noteField w) (valField w))
  | 0x03 => .ok (.noteOff (noteField w))
  | 0x04 => .ok .allNotesOff
  | 0x05 => .ok (.loadPreset (indexField w))
  | 0x06 => decodeSetp (idxField w) (valField w)
  | 0x07 => .ok .lfoSync
  | 0x08 => .ok (.fxClear (maskField w))
  | _ => .error (.opcode (opField w))

/-- A word as spec/opcode_table.json numbers its bits, given to the decoder. Every command has 64 bits; the
bits above `nbits` are 0. -/
def decodeTableWord (nbits w : Nat) : Option Instr :=
  match decode (BitVec.ofNat 64 (w % 2 ^ nbits)) with
  | .ok i => some i
  | .error _ => none

/-! ## The encoder -/

/-- A word from its fields, `rsv` zero as software should write it (R90, R98). -/
def packWord (op idx : BitVec 8) (val : BitVec 32) : Word := op ++ idx ++ (0 : BitVec 16) ++ val

/-- The word of a command, from the opcode map of R96 and the parameter ids of R97. -/
def encode : Instr → Word
  | .nop => packWord 0x00 0 0
  | .tick => packWord 0x01 0 0
  | .noteOn note velocity => packWord 0x02 (BitVec.ofNat 8 note) velocity
  | .noteOff note => packWord 0x03 (BitVec.ofNat 8 note) 0
  | .allNotesOff => packWord 0x04 0 0
  | .loadPreset index => packWord 0x05 (BitVec.ofNat 8 index) 0
  | .setpMixSine val => packWord 0x06 0x00 val
  | .setpMixTri val => packWord 0x06 0x01 val
  | .setpMixSaw val => packWord 0x06 0x02 val
  | .setpMixSquare val => packWord 0x06 0x03 val
  | .setpMixNoise val => packWord 0x06 0x04 val
  | .setpOscMix val => packWord 0x06 0x05 val
  | .setpCutoff val => packWord 0x06 0x08 val
  | .setpResonance val => packWord 0x06 0x09 val
  | .setpDrive val => packWord 0x06 0x0A val
  | .setpFilterMode val => packWord 0x06 0x0B val
  | .setpFilterType val => packWord 0x06 0x0C val
  | .setpEnvDepth val => packWord 0x06 0x0D val
  | .setpAmpAttack val => packWord 0x06 0x10 val
  | .setpAmpDecay val => packWord 0x06 0x11 val
  | .setpAmpSustain val => packWord 0x06 0x12 val
  | .setpAmpRelease val => packWord 0x06 0x13 val
  | .setpFltAttack val => packWord 0x06 0x14 val
  | .setpFltDecay val => packWord 0x06 0x15 val
  | .setpFltSustain val => packWord 0x06 0x16 val
  | .setpFltRelease val => packWord 0x06 0x17 val
  | .setpSecMode val => packWord 0x06 0x18 val
  | .setpSecIndex val => packWord 0x06 0x19 val
  | .setpSecRatio val => packWord 0x06 0x1A val
  | .setpSecShape val => packWord 0x06 0x1B val
  | .setpSecLevel val => packWord 0x06 0x1C val
  | .setpLfoRate val => packWord 0x06 0x20 val
  | .setpLfoRateNorm val => packWord 0x06 0x21 val
  | .setpLfoShape val => packWord 0x06 0x22 val
  | .setpLfoDepth val => packWord 0x06 0x23 val
  | .setpMasterVolume val => packWord 0x06 0x28 val
  | .setpChorusRate val => packWord 0x06 0x30 val
  | .setpChorusDepth val => packWord 0x06 0x31 val
  | .setpChorusMix val => packWord 0x06 0x32 val
  | .setpDelayTime val => packWord 0x06 0x38 val
  | .setpDelayFeedback val => packWord 0x06 0x39 val
  | .setpDelayMix val => packWord 0x06 0x3A val
  | .setpReverbDecay val => packWord 0x06 0x40 val
  | .setpReverbMix val => packWord 0x06 0x41 val
  | .lfoSync => packWord 0x07 0 0
  | .fxClear mask => packWord 0x08 (mask.setWidth 8) 0

/-- The `mask` column of the row (R96, R97). -/
def tableMask : Instr → Word
  | .nop => 0xFF00000000000000
  | .tick => 0xFF00000000000000
  | .noteOn _ _ => 0xFF00000000000000
  | .noteOff _ => 0xFF00000000000000
  | .allNotesOff => 0xFF00000000000000
  | .loadPreset _ => 0xFF00000000000000
  | .setpMixSine _ => 0xFFFF000000000000
  | .setpMixTri _ => 0xFFFF000000000000
  | .setpMixSaw _ => 0xFFFF000000000000
  | .setpMixSquare _ => 0xFFFF000000000000
  | .setpMixNoise _ => 0xFFFF000000000000
  | .setpOscMix _ => 0xFFFF000000000000
  | .setpCutoff _ => 0xFFFF000000000000
  | .setpResonance _ => 0xFFFF000000000000
  | .setpDrive _ => 0xFFFF000000000000
  | .setpFilterMode _ => 0xFFFF000000000000
  | .setpFilterType _ => 0xFFFF000000000000
  | .setpEnvDepth _ => 0xFFFF000000000000
  | .setpAmpAttack _ => 0xFFFF000000000000
  | .setpAmpDecay _ => 0xFFFF000000000000
  | .setpAmpSustain _ => 0xFFFF000000000000
  | .setpAmpRelease _ => 0xFFFF000000000000
  | .setpFltAttack _ => 0xFFFF000000000000
  | .setpFltDecay _ => 0xFFFF000000000000
  | .setpFltSustain _ => 0xFFFF000000000000
  | .setpFltRelease _ => 0xFFFF000000000000
  | .setpSecMode _ => 0xFFFF000000000000
  | .setpSecIndex _ => 0xFFFF000000000000
  | .setpSecRatio _ => 0xFFFF000000000000
  | .setpSecShape _ => 0xFFFF000000000000
  | .setpSecLevel _ => 0xFFFF000000000000
  | .setpLfoRate _ => 0xFFFF000000000000
  | .setpLfoRateNorm _ => 0xFFFF000000000000
  | .setpLfoShape _ => 0xFFFF000000000000
  | .setpLfoDepth _ => 0xFFFF000000000000
  | .setpMasterVolume _ => 0xFFFF000000000000
  | .setpChorusRate _ => 0xFFFF000000000000
  | .setpChorusDepth _ => 0xFFFF000000000000
  | .setpChorusMix _ => 0xFFFF000000000000
  | .setpDelayTime _ => 0xFFFF000000000000
  | .setpDelayFeedback _ => 0xFFFF000000000000
  | .setpDelayMix _ => 0xFFFF000000000000
  | .setpReverbDecay _ => 0xFFFF000000000000
  | .setpReverbMix _ => 0xFFFF000000000000
  | .lfoSync => 0xFF00000000000000
  | .fxClear _ => 0xFF00000000000000

/-- The `match` column of the row (R96, R97). -/
def tableMatch : Instr → Word
  | .nop => 0x0000000000000000
  | .tick => 0x0100000000000000
  | .noteOn _ _ => 0x0200000000000000
  | .noteOff _ => 0x0300000000000000
  | .allNotesOff => 0x0400000000000000
  | .loadPreset _ => 0x0500000000000000
  | .setpMixSine _ => 0x0600000000000000
  | .setpMixTri _ => 0x0601000000000000
  | .setpMixSaw _ => 0x0602000000000000
  | .setpMixSquare _ => 0x0603000000000000
  | .setpMixNoise _ => 0x0604000000000000
  | .setpOscMix _ => 0x0605000000000000
  | .setpCutoff _ => 0x0608000000000000
  | .setpResonance _ => 0x0609000000000000
  | .setpDrive _ => 0x060A000000000000
  | .setpFilterMode _ => 0x060B000000000000
  | .setpFilterType _ => 0x060C000000000000
  | .setpEnvDepth _ => 0x060D000000000000
  | .setpAmpAttack _ => 0x0610000000000000
  | .setpAmpDecay _ => 0x0611000000000000
  | .setpAmpSustain _ => 0x0612000000000000
  | .setpAmpRelease _ => 0x0613000000000000
  | .setpFltAttack _ => 0x0614000000000000
  | .setpFltDecay _ => 0x0615000000000000
  | .setpFltSustain _ => 0x0616000000000000
  | .setpFltRelease _ => 0x0617000000000000
  | .setpSecMode _ => 0x0618000000000000
  | .setpSecIndex _ => 0x0619000000000000
  | .setpSecRatio _ => 0x061A000000000000
  | .setpSecShape _ => 0x061B000000000000
  | .setpSecLevel _ => 0x061C000000000000
  | .setpLfoRate _ => 0x0620000000000000
  | .setpLfoRateNorm _ => 0x0621000000000000
  | .setpLfoShape _ => 0x0622000000000000
  | .setpLfoDepth _ => 0x0623000000000000
  | .setpMasterVolume _ => 0x0628000000000000
  | .setpChorusRate _ => 0x0630000000000000
  | .setpChorusDepth _ => 0x0631000000000000
  | .setpChorusMix _ => 0x0632000000000000
  | .setpDelayTime _ => 0x0638000000000000
  | .setpDelayFeedback _ => 0x0639000000000000
  | .setpDelayMix _ => 0x063A000000000000
  | .setpReverbDecay _ => 0x0640000000000000
  | .setpReverbMix _ => 0x0641000000000000
  | .lfoSync => 0x0700000000000000
  | .fxClear _ => 0x0800000000000000

/-! ## The byte order of a serialised word (R67): byte 0 is bits 7:0 -/

/-- The eight bytes of a word, in transport order. -/
def bytesOfWord (w : Word) : List Byte :=
  [w.extractLsb' 0 8, w.extractLsb' 8 8, w.extractLsb' 16 8, w.extractLsb' 24 8,
   w.extractLsb' 32 8, w.extractLsb' 40 8, w.extractLsb' 48 8, w.extractLsb' 56 8]

/-- The word at the head of a byte stream, with the rest of the stream; none where fewer than eight bytes are
there (a word is presented whole, R90). -/
def wordOfBytes : List Byte → Option (Word × List Byte)
  | b0 :: b1 :: b2 :: b3 :: b4 :: b5 :: b6 :: b7 :: rest =>
    some (b7 ++ b6 ++ b5 ++ b4 ++ b3 ++ b2 ++ b1 ++ b0, rest)
  | _ => none

/-! ## The assembler's numbers and pseudo-commands -/

/-- Rounding to the nearest integer, ties to even. -/
def roundTiesToEven (x : Scalar) : Int :=
  let f := x.floor
  let r := x - (f : Scalar)
  if r < 1 / 2 then f else if 1 / 2 < r then f + 1 else if f % 2 = 0 then f else f + 1

/-- The assembler's encoding of a real as a Q operand: `round_to_nearest_ties_to_even(x × 65536)` saturated to
[−2^31, 2^31 − 1] (R93). -/
def encodeQ (x : Scalar) : BitVec 32 :=
  BitVec.ofInt 32 (max (-2147483648) (min 2147483647 (roundTiesToEven (x * 65536))))

/-- The pseudo-commands of R103, with the numbers the assembler is given. -/
inductive Pseudo where
  | setmix (sine tri saw square noise : Scalar)
  | setamp (a d s r : Scalar)
  | setflt (a d s r : Scalar)
  | ticks (n : Nat)
  | block
  | clearall
deriving DecidableEq, Repr

/-- The expansion of a pseudo-command, in the order written (R103). `blockFrames` is the host's `CFG.BLOCK`. -/
def Pseudo.expand (blockFrames : Nat) : Pseudo → List Instr
  | .setmix a b c d e =>
    [.setpMixSine (encodeQ a), .setpMixTri (encodeQ b), .setpMixSaw (encodeQ c),
     .setpMixSquare (encodeQ d), .setpMixNoise (encodeQ e)]
  | .setamp a d s r =>
    [.setpAmpAttack (encodeQ a), .setpAmpDecay (encodeQ d), .setpAmpSustain (encodeQ s),
     .setpAmpRelease (encodeQ r)]
  | .setflt a d s r =>
    [.setpFltAttack (encodeQ a), .setpFltDecay (encodeQ d), .setpFltSustain (encodeQ s),
     .setpFltRelease (encodeQ r)]
  | .ticks n => List.replicate n .tick
  | .block => List.replicate blockFrames .tick
  | .clearall => [.fxClear 0b111]

/-- `CFG.BLOCK`'s default, read by no rule of the core (R7). -/
def defaultBlock : Nat := 512

/-- The source's API names, accepted as aliases of the mnemonics (R102). -/
def mnemonicOfAlias : String → Option String
  | "noteOn" => some "NOTE_ON"
  | "noteOff" => some "NOTE_OFF"
  | "allNotesOff" => some "ALL_NOTES_OFF"
  | "loadPreset" => some "LOAD_PRESET"
  | "sync" => some "LFO_SYNC"
  | "clear" => some "FX_CLEAR"
  | "process" => some "TICK"
  | _ => none

end Sys2Proof
end

