-- ==== Sys2Proof/Numerics.lean ====
section
/-! DEFINITION. What the spec leaves to the implementation of numbers: the numerics record CFG.NUM and the generator
CFG.PRNG (spec/00_scope.md R9, R10, R12), their laws, and the reference instance. Everything is over exact numbers
`X`: the rationals for the machine, the reals for the reference instance. -/

namespace Sys2Proof

/-! ## CFG.NUM and CFG.PRNG (R9, R10, R12) -/

/-- `CFG.NUM` over the exact numbers `X`, and `next` of `CFG.PRNG`. The number type `T` is the set of values of
`rnd`. `timesPi x` is the operator `π × x` of the rules: `rnd` of the exact product with the circle constant itself,
which is a number of no finite format (R10). `ln500` is the constant of `T` that R297 names. A generator state is a
natural number (log entry 3). -/
structure Numerics (X : Type) where
  rnd : X → X
  timesPi : X → X
  ln500 : X
  sin : X → X
  exp : X → X
  exp2 : X → X
  tan : X → X
  next : Nat → Nat × X

namespace Numerics

variable {X : Type}

/-- The number type `T` of a format: the values of its rounding (R9). -/
abbrev inT (N : Numerics X) (x : X) : Prop := N.rnd x = x

variable [Field X]

/-- `π × 1`: the circle constant as a number of `T`. The laws speak of it; no rule reads it. -/
def pi (N : Numerics X) : X := N.timesPi 1

/-! The arithmetic operators: `rnd` applied to the exact result (R9). -/

/-- `x + y`. -/
def add (N : Numerics X) (x y : X) : X := N.rnd (x + y)
/-- `x − y`. -/
def sub (N : Numerics X) (x y : X) : X := N.rnd (x - y)
/-- `x × y`. -/
def mul (N : Numerics X) (x y : X) : X := N.rnd (x * y)
/-- `x / y`. -/
def div (N : Numerics X) (x y : X) : X := N.rnd (x / y)

end Numerics

/-- What may be used of every number format: the named properties of R9 and U1. `rnd` is monotone and fixes its
own values and the multiples of 1/2 from −4 to 20; negating a number of `T` in [0, 1] and taking a fractional part
are exact; a step toward 1 does not pass 1. The functions keep to the ranges of the mathematical functions of
their names, and the generator has the one law of R12. Log entries 2 and 3. -/
structure Numerics.Lawful {X : Type} [Field X] [LinearOrder X] [FloorRing X] (N : Numerics X) : Prop where
  rnd_rnd : ∀ x, N.rnd (N.rnd x) = N.rnd x
  rnd_mono : ∀ x y, x ≤ y → N.rnd x ≤ N.rnd y
  rnd_halves : ∀ n : Int, -8 ≤ n → n ≤ 40 → N.rnd ((n : X) / 2) = (n : X) / 2
  rnd_neg : ∀ x, N.inT x → 0 ≤ x → x ≤ 1 → N.rnd (-x) = -x
  rnd_fract : ∀ x, N.inT x → 0 ≤ x → N.rnd (x - (⌊x⌋ : X)) = x - (⌊x⌋ : X)
  rnd_complement : ∀ x, N.inT x → 0 ≤ x → x ≤ 1 → N.rnd (x + N.rnd (1 - x)) ≤ 1
  sin_range : ∀ x, -1 ≤ N.sin x ∧ N.sin x ≤ 1
  exp_range : ∀ x, x ≤ 0 → 0 ≤ N.exp x ∧ N.exp x ≤ 1
  exp2_nonneg : ∀ x, 0 ≤ N.exp2 x
  next_range : ∀ g, -1 ≤ (N.next g).2 ∧ (N.next g).2 < 1

/-- What may be used of a format that does not round, `rnd = id`, beside the laws of every format: facts of the
mathematical functions and constants. The reference instance has them. Log entry 2. -/
structure Numerics.Exact {X : Type} [Field X] [LinearOrder X] [FloorRing X] (N : Numerics X) : Prop
    extends N.Lawful where
  rnd_eq : ∀ x, N.rnd x = x
  timesPi_eq : ∀ x, N.timesPi x = N.pi * x
  pi_bounds : 314 / 100 < N.pi ∧ N.pi < 22 / 7
  ln500_bounds : 6 < N.ln500 ∧ N.ln500 < 7
  sin_zero : N.sin 0 = 0
  sin_sixth : N.sin (N.pi / 6) = 1 / 2
  sin_quarter : N.sin (N.pi / 2) = 1
  sin_half : N.sin N.pi = 0
  sin_three_quarters : N.sin (3 * N.pi / 2) = -1
  sin_pos : ∀ x, 0 < x → x < N.pi → 0 < N.sin x
  exp_zero : N.exp 0 = 1
  exp_pos : ∀ x, 0 < N.exp x
  exp_lt_one : ∀ x, x < 0 → N.exp x < 1
  exp_mono : ∀ x y, x ≤ y → N.exp x ≤ N.exp y
  exp_ln500 : N.exp N.ln500 = 500
  exp2_zero : N.exp2 0 = 1
  exp2_pos : ∀ x, 0 < N.exp2 x
  exp2_add_one : ∀ x, N.exp2 (x + 1) = 2 * N.exp2 x
  exp2_mono : ∀ x y, x ≤ y → N.exp2 x ≤ N.exp2 y
  tan_pos : ∀ x, 0 < x → x < N.pi / 2 → 0 < N.tan x
  tan_eighth_turn : N.tan (N.pi / 4) = 1

/-- The format's operators are those of R9: `R` is its `rnd : ℝ → T`, the product with π is `R` of the product of
reals with the circle constant (R10), and its constant ln 500 is `R (ln 500)` (R297). -/
structure Numerics.Rounding (N : Numerics Scalar) (R : ℝ → Scalar) : Prop where
  rnd_eq : ∀ x : Scalar, N.rnd x = R (x : ℝ)
  timesPi_eq : ∀ x : Scalar, N.timesPi x = R (Real.pi * x)
  ln500_eq : N.ln500 = R (Real.log 500)

/-- The format's `rnd` is a monotone rounding of the reals. -/
def Numerics.RoundsReals (N : Numerics Scalar) : Prop := ∃ R : ℝ → Scalar, Monotone R ∧ N.Rounding R

/-- The constants of a format on the rationals that does not round: within 10^−20 of the circle constant and of
ln 500 (neither is rational, so none is equal to it). -/
structure Numerics.CloseConstants (N : Numerics Scalar) : Prop where
  pi_close : |(N.pi : ℝ) - Real.pi| < 1 / 10 ^ 20
  ln500_close : |(N.ln500 : ℝ) - Real.log 500| < 1 / 10 ^ 20

/-- THE REFERENCE INSTANCE of R9: `T = ℝ`, `rnd = id`, the mathematical functions, the circle constant itself, with
any generator. Machine/Reference.lean has the machine that runs at it. -/
noncomputable def Numerics.reference (next : Nat → Nat × ℝ) : Numerics ℝ where
  rnd := fun x => x
  timesPi := fun x => Real.pi * x
  ln500 := Real.log 500
  sin := Real.sin
  exp := Real.exp
  exp2 := fun x => (2 : ℝ) ^ x
  tan := Real.tan
  next := next

end Sys2Proof
end

