-- ==== Sys2Proof/Witness.lean ====
section
/-! SUPPORT. Two number formats on the rationals, one that does not round and one that does, that meet the laws of
Numerics.lean. They show that the laws can be met together and are used for nothing else. -/

namespace Sys2Proof

/-- NOT the machine's: a witness that the laws of an exact format can be met together. -/
def Numerics.witness : Numerics Scalar where
  rnd := fun x => x
  timesPi := fun x => 3141592653589793238465 / 10 ^ 21 * x
  ln500 := 6214608098422191742636742 / 10 ^ 24
  sin := fun x =>
    let p : Scalar := 3141592653589793238465 / 10 ^ 21
    if x = 0 ∨ x = p then 0 else if x = p / 6 then 1 / 2 else if x = 3 * p / 2 then -1 else 1
  exp := fun x => if x < 0 then 1 / (1 - x) else 1 + x * (499 / (6214608098422191742636742 / 10 ^ 24))
  exp2 := fun x => 2 ^ ⌊x⌋
  tan := fun _ => 1
  next := fun g => (g, 0)

/-! A decision of `⌊2πx⌋` for a rational `x`, which the second witness needs: the partial sums of the Leibniz series
close in on π, and a search ends because π is irrational. -/

/-- The partial sums of the Leibniz series, which tend to π/4. -/
def leibniz (n : Nat) : Scalar := ∑ i ∈ Finset.range n, (-1) ^ i / (2 * (i : Scalar) + 1)

theorem leibniz_cast (n : Nat) :
    (leibniz n : ℝ) = ∑ i ∈ Finset.range n, (-1) ^ i * (1 / (2 * (i : ℝ) + 1)) := by
  simp [leibniz, div_eq_mul_inv]

theorem leibniz_tendsto : Filter.Tendsto (fun n => (leibniz n : ℝ)) Filter.atTop (nhds (Real.pi / 4)) := by
  refine Real.tendsto_sum_pi_div_four.congr fun n => ?_
  rw [leibniz_cast]; simp [div_eq_mul_inv]

theorem leibniz_antitone : Antitone fun i : Nat => 1 / (2 * (i : ℝ) + 1) := by
  intro a b h
  have : (a : ℝ) ≤ b := by exact_mod_cast h
  exact one_div_le_one_div_of_le (by positivity) (by linarith)

/-- Even partial sums lie below π/4, odd ones above. -/
theorem leibniz_bounds (n : Nat) :
    4 * (leibniz (2 * n) : ℝ) ≤ Real.pi ∧ Real.pi ≤ 4 * (leibniz (2 * n + 1) : ℝ) := by
  have h := leibniz_tendsto.congr leibniz_cast
  have h1 := leibniz_antitone.alternating_series_le_tendsto h n
  have h2 := leibniz_antitone.tendsto_le_alternating_series h n
  rw [← leibniz_cast] at h1 h2
  constructor <;> linarith

theorem floor_search (x : Scalar) : ∃ n, ⌊8 * leibniz (2 * n) * x⌋ = ⌊8 * leibniz (2 * n + 1) * x⌋ := by
  by_cases hx : x = 0
  · exact ⟨0, by simp [hx]⟩
  · have key : ∀ f : Nat → Nat, Filter.Tendsto f Filter.atTop Filter.atTop →
        ∀ᶠ n in Filter.atTop, ⌊8 * leibniz (f n) * x⌋ = ⌊2 * Real.pi * x⌋ := by
      intro f hf
      have ht : Filter.Tendsto (fun n => 8 * (leibniz (f n) : ℝ) * x) Filter.atTop (nhds (2 * Real.pi * x)) := by
        rw [show 2 * Real.pi * x = 8 * (Real.pi / 4) * x by ring]
        exact ((leibniz_tendsto.comp hf).const_mul 8).mul_const (x : ℝ)
      have hne : (⌊2 * Real.pi * x⌋ : ℝ) ≠ 2 * Real.pi * x := by
        intro h
        apply irrational_pi
        refine ⟨⌊2 * Real.pi * x⌋ / (2 * x), ?_⟩
        have hx' : (x : ℝ) ≠ 0 := by exact_mod_cast hx
        push_cast
        rw [h]; field_simp
      have hlt : (⌊2 * Real.pi * x⌋ : ℝ) < 2 * Real.pi * x := lt_of_le_of_ne (Int.floor_le _) hne
      filter_upwards [ht.eventually (lt_mem_nhds hlt), ht.eventually (gt_mem_nhds (Int.lt_floor_add_one _))] with n h1 h2
      rw [Int.floor_eq_iff]
      constructor
      · have : ((⌊2 * Real.pi * x⌋ : Scalar) : ℝ) ≤ ((8 * leibniz (f n) * x : Scalar) : ℝ) := by push_cast; exact h1.le
        exact_mod_cast this
      · have : ((8 * leibniz (f n) * x : Scalar) : ℝ) < ((⌊2 * Real.pi * x⌋ + 1 : Scalar) : ℝ) := by push_cast; exact h2
        exact_mod_cast this
    have e1 := key (fun n => 2 * n) (Filter.tendsto_atTop_mono (fun n => by simp only [id]; omega) Filter.tendsto_id)
    have e2 := key (fun n => 2 * n + 1) (Filter.tendsto_atTop_mono (fun n => by simp only [id]; omega) Filter.tendsto_id)
    obtain ⟨n, h1, h2⟩ := (e1.and e2).exists
    exact ⟨n, h1.trans h2.symm⟩

/-- `⌊2πx⌋`. -/
def floorTwoPi (x : Scalar) : Int := ⌊8 * leibniz (2 * Nat.find (floor_search x)) * x⌋

theorem floorTwoPi_eq (x : Scalar) : floorTwoPi x = ⌊2 * (Real.pi * x)⌋ := by
  have h := Nat.find_spec (floor_search x)
  unfold floorTwoPi
  generalize Nat.find (floor_search x) = n at h ⊢
  have cast : ∀ k, ⌊8 * leibniz k * x⌋ = ⌊8 * (leibniz k : ℝ) * x⌋ := fun k => by
    rw [← Rat.floor_cast (α := ℝ)]; push_cast; rfl
  have b := leibniz_bounds n
  rw [cast, cast] at h
  rw [cast]
  rcases le_total 0 (x : ℝ) with hx | hx
  · exact le_antisymm (Int.floor_mono (by nlinarith)) (h ▸ Int.floor_mono (by nlinarith))
  · exact le_antisymm (h ▸ Int.floor_mono (by nlinarith)) (Int.floor_mono (by nlinarith))

/-- NOT the machine's: a witness that the laws of a rounding format can be met together. Its numbers are the
multiples of 1/2, rounded down. -/
def Numerics.grid : Numerics Scalar where
  rnd := fun x => (⌊2 * x⌋ : Scalar) / 2
  timesPi := fun x => (floorTwoPi x : Scalar) / 2
  ln500 := 6
  sin := fun _ => 0
  exp := fun _ => 0
  exp2 := fun _ => 0
  tan := fun _ => 0
  next := fun g => (g, 0)

theorem Numerics.witness_exact : Numerics.witness.Exact where
  rnd_rnd := fun _ => rfl
  rnd_mono := fun _ _ h => h
  rnd_halves := fun _ _ _ => rfl
  rnd_neg := fun _ _ _ _ => rfl
  rnd_fract := fun _ _ _ => rfl
  rnd_complement := by intro x _ _ h; simp only [witness]; linarith
  exp_range := by
    intro x h; simp only [witness]; split_ifs with h1
    · exact ⟨(div_pos one_pos (by linarith)).le, (div_le_one (by linarith)).2 (by linarith)⟩
    · have : x = 0 := by linarith
      subst this; norm_num
  exp2_nonneg := by intro x; exact (zpow_pos (by norm_num) _).le
  rnd_eq := fun _ => rfl
  timesPi_eq := by intro x; simp [witness, pi]
  pi_bounds := by norm_num [witness, pi]
  ln500_bounds := by norm_num [witness]
  sin_range := by intro x; simp only [witness]; split_ifs <;> constructor <;> norm_num
  sin_zero := by norm_num [witness, pi]
  sin_sixth := by norm_num [witness, pi]
  sin_quarter := by norm_num [witness, pi]
  sin_half := by norm_num [witness, pi]
  sin_three_quarters := by norm_num [witness, pi]
  sin_pos := by
    intro x h0 h1; simp only [witness, pi] at *
    rw [if_neg (by rintro (h | h) <;> linarith)]
    split_ifs with h2 h3 <;> linarith
  exp_zero := by norm_num [witness]
  exp_pos := by
    intro x; simp only [witness]; split_ifs with h
    · exact div_pos one_pos (by linarith)
    · push Not at h; linarith
  exp_lt_one := by
    intro x h; simp only [witness]; rw [if_pos h, div_lt_one (by linarith)]; linarith
  exp_mono := by
    intro x y h; simp only [witness]; split_ifs with hx hy hy
    · exact one_div_le_one_div_of_le (by linarith) (by linarith)
    · have : 1 / (1 - x) ≤ 1 := by rw [div_le_one (by linarith)]; linarith
      push Not at hy; linarith
    · push Not at hx; linarith
    · linarith
  exp_ln500 := by norm_num [witness]
  exp2_zero := by norm_num [witness]
  exp2_pos := by intro x; exact zpow_pos (by norm_num) _
  exp2_add_one := by
    intro x; simp only [witness]; rw [Int.floor_add_one, zpow_add_one₀ (by norm_num), mul_comm]
  exp2_mono := by
    intro x y h; exact zpow_le_zpow_right₀ (by norm_num) (Int.floor_mono h)
  tan_pos := by intros; norm_num [witness]
  tan_eighth_turn := rfl
  next_range := by intro g; norm_num [witness]

/-- `e^x` between a partial sum of its series and that sum with a remainder. -/
theorem exp_series_bounds {x : Scalar} (h0 : 0 ≤ x) (h1 : x ≤ 1) {n : Nat} (hn : 0 < n) :
    ((∑ m ∈ Finset.range n, x ^ m / (m.factorial : Scalar) : Scalar) : ℝ) ≤ Real.exp x
    ∧ Real.exp x ≤ ((∑ m ∈ Finset.range n, x ^ m / (m.factorial : Scalar)
        + x ^ n * (n + 1) / ((n.factorial : Scalar) * n) : Scalar) : ℝ) := by
  constructor
  · push_cast; exact Real.sum_le_exp_of_nonneg (by exact_mod_cast h0) n
  · push_cast; exact Real.exp_bound' (by exact_mod_cast h0) (by exact_mod_cast h1) hn

theorem log500_bounds : ((6214608098422191742636742 / 10 ^ 24 - 1 / 10 ^ 21 : Scalar) : ℝ) < Real.log 500
    ∧ Real.log 500 < ((6214608098422191742636742 / 10 ^ 24 + 1 / 10 ^ 21 : Scalar) : ℝ) := by
  have e : ∀ q : Scalar, Real.exp (q : ℝ) = Real.exp ((q / 8 : Scalar) : ℝ) ^ 8 := fun q => by
    rw [← Real.exp_nat_mul]; push_cast; congr 1; ring
  constructor
  · rw [Real.lt_log_iff_exp_lt (by norm_num), e]
    have h := (exp_series_bounds (x := (6214608098422191742636742 / 10 ^ 24 - 1 / 10 ^ 21) / 8) (n := 24)
      (by norm_num) (by norm_num) (by norm_num)).2
    refine (pow_le_pow_left₀ (Real.exp_pos _).le h 8).trans_lt ?_
    have : (((∑ m ∈ Finset.range 24, ((6214608098422191742636742 / 10 ^ 24 - 1 / 10 ^ 21) / 8 : Scalar) ^ m
        / (m.factorial : Scalar) + ((6214608098422191742636742 / 10 ^ 24 - 1 / 10 ^ 21) / 8 : Scalar) ^ 24
        * ((24 : Nat) + 1) / (((24 : Nat).factorial : Scalar) * (24 : Nat))) ^ 8 : Scalar)) < 500 := by decide +kernel
    exact_mod_cast this
  · rw [Real.log_lt_iff_lt_exp (by norm_num), e]
    have h := (exp_series_bounds (x := (6214608098422191742636742 / 10 ^ 24 + 1 / 10 ^ 21) / 8) (n := 24)
      (by norm_num) (by norm_num) (by norm_num)).1
    refine lt_of_lt_of_le ?_ (pow_le_pow_left₀ (Rat.cast_nonneg.2 (Finset.sum_nonneg fun m _ =>
      div_nonneg (pow_nonneg (by norm_num) m) (Nat.cast_nonneg _))) h 8)
    have : 500 < (((∑ m ∈ Finset.range 24, ((6214608098422191742636742 / 10 ^ 24 + 1 / 10 ^ 21) / 8 : Scalar) ^ m
        / (m.factorial : Scalar)) ^ 8 : Scalar)) := by decide +kernel
    exact_mod_cast this

theorem Numerics.witness_closeConstants : Numerics.witness.CloseConstants where
  pi_close := by
    have h1 := Real.pi_gt_d20
    have h2 := Real.pi_lt_d20
    unfold Numerics.witness Numerics.pi
    rw [abs_lt]
    push_cast
    constructor <;> norm_num at h1 h2 ⊢ <;> linarith
  ln500_close := by
    obtain ⟨h1, h2⟩ := log500_bounds
    unfold Numerics.witness
    rw [abs_lt]
    push_cast at *
    constructor <;> linarith

/-- A value of the grid's rounding is a multiple of 1/2. -/
theorem Numerics.grid_rep {x : Scalar} (h : Numerics.grid.rnd x = x) : ∃ n : Int, x = (n : Scalar) / 2 :=
  ⟨⌊2 * x⌋, h.symm⟩

theorem Numerics.grid_halves (n : Int) : Numerics.grid.rnd ((n : Scalar) / 2) = (n : Scalar) / 2 := by
  simp only [grid]
  rw [mul_div_cancel₀ _ (by norm_num : (2 : Scalar) ≠ 0), Int.floor_intCast]

theorem Numerics.grid_lawful : Numerics.grid.Lawful where
  rnd_rnd := fun x => Numerics.grid_halves ⌊2 * x⌋
  rnd_mono := by
    intro x y h
    simp only [grid]
    have : ⌊2 * x⌋ ≤ ⌊2 * y⌋ := Int.floor_mono (by linarith)
    have : (⌊2 * x⌋ : Scalar) ≤ ⌊2 * y⌋ := by exact_mod_cast this
    linarith
  rnd_halves := fun n _ _ => Numerics.grid_halves n
  rnd_neg := by
    intro x h _ _
    obtain ⟨n, rfl⟩ := Numerics.grid_rep h
    have := Numerics.grid_halves (-n)
    rwa [Int.cast_neg, neg_div] at this
  rnd_fract := by
    intro x h _
    obtain ⟨n, rfl⟩ := Numerics.grid_rep h
    have := Numerics.grid_halves (n - 2 * ⌊(n : Scalar) / 2⌋)
    have e : ((n - 2 * ⌊(n : Scalar) / 2⌋ : Int) : Scalar) / 2 = (n : Scalar) / 2 - ⌊(n : Scalar) / 2⌋ := by
      push_cast; ring
    rwa [e] at this
  rnd_complement := by
    intro x h _ _
    obtain ⟨n, rfl⟩ := Numerics.grid_rep h
    have e : 1 - (n : Scalar) / 2 = ((2 - n : Int) : Scalar) / 2 := by push_cast; ring
    have e1 : (n : Scalar) / 2 + ((2 - n : Int) : Scalar) / 2 = ((2 : Int) : Scalar) / 2 := by push_cast; ring
    rw [e, Numerics.grid_halves, e1, Numerics.grid_halves]
    norm_num
  sin_range := by intro x; norm_num [grid]
  exp_range := by intro x _; norm_num [grid]
  exp2_nonneg := fun _ => le_rfl
  next_range := by intro g; norm_num [grid]

theorem Numerics.grid_roundsReals : Numerics.grid.RoundsReals := by
  refine ⟨fun r => (⌊2 * r⌋ : Scalar) / 2, ?_, ?_, ?_, ?_⟩
  · intro x y h
    have : ⌊2 * x⌋ ≤ ⌊2 * y⌋ := Int.floor_mono (by linarith)
    have : (⌊2 * x⌋ : Scalar) ≤ ⌊2 * y⌋ := by exact_mod_cast this
    simp only
    linarith
  · intro x
    have e : (2 : ℝ) * (x : ℝ) = ((2 * x : Scalar) : ℝ) := by push_cast; ring
    simp only [grid, e, Rat.floor_cast]
  · intro x
    simp only [grid, floorTwoPi_eq]
  · have he := Real.exp_one_lt_d9
    have he' := Real.exp_one_gt_d9
    have h1 : (6 : ℝ) ≤ Real.log 500 := by
      rw [Real.le_log_iff_exp_le (by norm_num)]
      have : Real.exp 6 = Real.exp 1 ^ 6 := by rw [← Real.exp_nat_mul]; norm_num
      rw [this]
      calc Real.exp 1 ^ 6 ≤ (2.72 : ℝ) ^ 6 := pow_le_pow_left₀ (Real.exp_pos 1).le (by linarith) 6
        _ ≤ 500 := by norm_num
    have h2 : 2 * Real.log 500 < 13 := by
      have : 2 * Real.log 500 = Real.log (500 ^ 2) := by rw [Real.log_pow]; norm_num
      rw [this, Real.log_lt_iff_lt_exp (by norm_num)]
      have : Real.exp 13 = Real.exp 1 ^ 13 := by rw [← Real.exp_nat_mul]; norm_num
      rw [this]
      calc (500 : ℝ) ^ 2 < (2.71 : ℝ) ^ 13 := by norm_num
        _ ≤ Real.exp 1 ^ 13 := pow_le_pow_left₀ (by norm_num) (by linarith) 13
    have : ⌊2 * Real.log 500⌋ = 12 := by rw [Int.floor_eq_iff]; constructor <;> push_cast <;> linarith
    simp only [grid, this]; norm_num

end Sys2Proof
end

