-- ==== Sys2Proof/Config.lean ====
section
/-! DEFINITION. The configuration record `CFG` of spec/00_scope.md R7: its plain-data fields (`Cfg`, sampled into
the state at reset, R340), the parameter file's type (10_state.md R23), and the number formats of the machine (R9,
R12): ONE uninterpreted family, `Config.formats`. The constants the spec fixes are in Machine/Constants.lean. -/

namespace Sys2Proof

/-- Which output of the state-variable filter a voice takes: E(4), 0 LP, 1 HP, 2 BP, 3 NOTCH (R23, R275). -/
inductive FilterMode where
  | lp | hp | bp | notch
deriving DecidableEq, Repr

/-- Which filter core the voices run: E(2), 0 SVF, 1 LADDER (R23, R276). -/
inductive FilterType where
  | svf | ladder
deriving DecidableEq, Repr

/-- The secondary engine's mode: E(3), 0 PM, 1 MORPH, 2 NOISE (R23, R286). -/
inductive SecMode where
  | pm | morph | noise
deriving DecidableEq, Repr

/-- The LFO's shape: E(6), 0 SINE to 5 SAMPLE_HOLD (R162, R298). -/
inductive LfoShape where
  | sine | triangle | sawUp | sawDown | square | sampleHold
deriving DecidableEq, Repr

/-- The parameter register file `P` (R23): its 37 registers, each under its own name. The write-only port
`LFO_RATE_NORM` is no register. -/
structure Params (X : Type) where
  mixSine : X
  mixTri : X
  mixSaw : X
  mixSquare : X
  mixNoise : X
  oscMix : X
  cutoff : X
  resonance : X
  drive : X
  filterMode : FilterMode
  filterType : FilterType
  envDepth : X
  ampAttack : X
  ampDecay : X
  ampSustain : X
  ampRelease : X
  fltAttack : X
  fltDecay : X
  fltSustain : X
  fltRelease : X
  secMode : SecMode
  secIndex : X
  secRatio : X
  secShape : X
  secLevel : X
  lfoRate : X
  lfoShape : LfoShape
  lfoDepth : X
  masterVolume : X
  chorusRate : X
  chorusDepth : X
  chorusMix : X
  delayTime : X
  delayFeedback : X
  delayMix : X
  reverbDecay : X
  reverbMix : X
deriving DecidableEq, Repr

/-- The reference instance of `RESET_PARAMS` (the list under R31). -/
def Params.reference {X : Type} [Field X] : Params X where
  mixSine := 1
  mixTri := 0
  mixSaw := 0
  mixSquare := 0
  mixNoise := 0
  oscMix := 0
  cutoff := 20000
  resonance := 0
  drive := 0
  filterMode := .lp
  filterType := .svf
  envDepth := 0
  ampAttack := 1 / 100
  ampDecay := 1 / 10
  ampSustain := 7 / 10
  ampRelease := 3 / 10
  fltAttack := 1 / 100
  fltDecay := 1 / 10
  fltSustain := 7 / 10
  fltRelease := 3 / 10
  secMode := .pm
  secIndex := 0
  secRatio := 0
  secShape := 0
  secLevel := 0
  lfoRate := 1
  lfoShape := .sine
  lfoDepth := 0
  masterVolume := 1
  chorusRate := 1
  chorusDepth := 0
  chorusMix := 0
  delayTime := 1 / 4
  delayFeedback := 0
  delayMix := 0
  reverbDecay := 0
  reverbMix := 0

/-- One record of the preset table: 18 numbers in the field order of R66. The numbers are any of `T` (U5):
log entry 12. -/
structure Preset (X : Type) where
  mixSine : X
  mixTri : X
  mixSaw : X
  mixSquare : X
  mixNoise : X
  cutoff : X
  resonance : X
  drive : X
  ampAttack : X
  ampDecay : X
  ampSustain : X
  ampRelease : X
  fltAttack : X
  fltDecay : X
  fltSustain : X
  fltRelease : X
  envDepth : X
  masterVolume : X
deriving DecidableEq, Repr

/-- The two legal sample rates (R7). -/
inductive SampleRate where
  | hz192000 | hz48000
deriving DecidableEq, Repr

/-- `CFG.SR` as a number of Hz. -/
def SampleRate.hz : SampleRate → Nat
  | .hz192000 => 192000
  | .hz48000 => 48000

/-- `CFG.NUM` as data: the exact rationals (`rnd = id`), or the `k`-th rounding number format (R9, U1). Log
entry 1. -/
inductive NumFormat where
  | exact
  | rounded (k : Nat)
deriving DecidableEq, Repr

/-- The plain-data fields of `CFG` that the spec leaves open (R7): sampled at reset, constant afterwards
(R340), written by no command. `num` names the number format; `seeds` holds `CFG.SEED` by instance number (R12).
Log entry 4. -/
structure Cfg (X : Type) where
  sr : SampleRate
  nv : Nat
  num : NumFormat
  lfoToHz : X
  presets : List (Preset X)
  resetParams : Params X
  seeds : List Nat
deriving DecidableEq, Repr

/-- `CFG.NPRESETS` (R66). -/
def Cfg.npresets {X : Type} (c : Cfg X) : Nat := c.presets.length

/-- `CFG.SEED(k)` (R12). An instance number the list does not reach has seed 0 (log entry 5). -/
def Cfg.seed {X : Type} (c : Cfg X) (k : Nat) : Nat := c.seeds.getD k 0

/-- The configuration `State.reset` takes: primary sample rate, default voice count, the reference rounding
`rnd = id`, `LFO_TO_HZ = 0`, no preset, reference `RESET_PARAMS` and reference `SEED(k) = k` (R7, R9, R12, R31,
the conventions of 95_test_vectors.md). DESIGN CHOICE, unsafe: log entry 5. -/
def Cfg.reference {X : Type} [Field X] : Cfg X where
  sr := .hz192000
  nv := 4
  num := .exact
  lfoToHz := 0
  presets := []
  resetParams := Params.reference
  seeds := List.range 16

/-! ## The machine's number formats -/

/-- A family of number formats with their laws. The defaults show that the type is inhabited and are used for
nothing else. -/
structure NumFamily where
  exact : Numerics Scalar := Numerics.witness
  rounded : Nat → Numerics Scalar := fun _ => Numerics.grid
  exact_exact : exact.Exact := by exact Numerics.witness_exact
  exact_close : exact.CloseConstants := by exact Numerics.witness_closeConstants
  rounded_lawful : ∀ k, (rounded k).Lawful := by exact fun _ => Numerics.grid_lawful
  rounded_roundsReals : ∀ k, (rounded k).RoundsReals := by exact fun _ => Numerics.grid_roundsReals
deriving Inhabited

/-- The machine's number formats: ONE uninterpreted family. Nothing can be proved of it but its laws, so a claim
about the machine holds of every implementation whose numerics meet them. Free value, log entries 1 to 3. -/
opaque Config.formats : NumFamily

/-- `CFG.NUM` and `CFG.PRNG` of a configuration, as every meaning reads them. -/
def Config.num : NumFormat → Numerics Scalar
  | .exact => { Config.formats.exact with rnd := fun x => x }
  | .rounded k => Config.formats.rounded k

theorem Config.num_exact : (Config.num .exact).Exact := by
  have h : Config.num .exact = Config.formats.exact := by
    have : Config.formats.exact.rnd = fun x => x := funext Config.formats.exact_exact.rnd_eq
    simp only [Config.num, ← this]
  rw [h]; exact Config.formats.exact_exact

theorem Config.num_lawful : ∀ f : NumFormat, (Config.num f).Lawful
  | .exact => Config.num_exact.toLawful
  | .rounded k => Config.formats.rounded_lawful k

theorem Config.num_roundsReals (k : Nat) : (Config.num (.rounded k)).RoundsReals :=
  Config.formats.rounded_roundsReals k

theorem Config.num_closeConstants : (Config.num .exact).CloseConstants :=
  ⟨Config.formats.exact_close.pi_close, Config.formats.exact_close.ln500_close⟩

end Sys2Proof
end

