-- ==== Sys2Proof/Machine/Constants.lean ====
section
/-! DEFINITION. The fields of `CFG` that spec/00_scope.md R7 fixes at a value, and the numbers that follow from
the sample rate. -/

namespace Sys2Proof.Machine

variable {X : Type} [Field X]

/-- `CFG.DETUNE`, the ratio of oscillator 2 to oscillator 1 (R7, D13). -/
def detune : X := 501 / 500
/-- `CFG.PW`, the square wave's pulse width as a phase (R7, D10). -/
def pulseWidth : X := 1 / 2
/-- `CFG.CHORUS_LEN` (R7, R65, D23). -/
def chorusLen : Nat := 4096
/-- `CFG.CHORUS_BASE_S`, seconds (R7). -/
def chorusBase : X := 7 / 1000
/-- `CFG.CHORUS_DEPTH_S`, seconds (R7). -/
def chorusDepthSpan : X := 3 / 1000
/-- `CFG.CHORUS_DETUNE`, right LFO rate over left (R7). -/
def chorusDetune : X := 11 / 10
/-- `CFG.DELAY_MAX_S`, seconds (R7). -/
def delayMaxS : X := 2
/-- `CFG.COMB_LEN[0..3]` (R7, R65). -/
def combLen0 : Nat := 2999
def combLen1 : Nat := 3407
def combLen2 : Nat := 3701
def combLen3 : Nat := 4003
/-- `CFG.COMB_BASE[0..3]` (R7, R247). -/
def combBase0 : X := 161 / 200
def combBase1 : X := 827 / 1000
def combBase2 : X := 783 / 1000
def combBase3 : X := 191 / 250
/-- `CFG.AP_LEN[0..1]` (R7, R65). -/
def apLen0 : Nat := 521
def apLen1 : Nat := 337
/-- `CFG.AP_G` (R7, R247). -/
def apGain : X := 7 / 10

/-- `CFG.SR` as a number (R7). -/
def rate (sr : SampleRate) : X := (sr.hz : X)

/-- `DELAY_LEN = floor(DELAY_MAX_S × SR)` (R65). -/
def delayLen (sr : SampleRate) : Nat := ⌊(delayMaxS * rate sr : Scalar)⌋.toNat

end Sys2Proof.Machine
end

