-- ==== Sys2Proof/Machine/State.lean ====
section
/-! DEFINITION. The machine's state as plain data (spec/10_state.md R20 to R35, 20_memory.md R60 to R65), its
stops, and the state after reset (R31, R340). Every number is of the exact numbers `X`; the machine's state
is at `X = Scalar`; `L` and `R` name the channels. -/

namespace Sys2Proof.Machine

/-- Why a run stops with a fault. NO constructor: no rule raises an exception, every command is total (R11,
R320). -/
inductive Fault where
deriving DecidableEq, Repr

/-- Why a command is refused. -/
inductive Refusal where
  /-- Asked for by the host's interface, for an arm of `exec` that has no meaning yet; raised by no arm (every
  command has its meaning), so it costs nothing. Safe. -/
  | notModelled (mnemonic : String)
deriving DecidableEq, Repr

/-- A ring's contents: (index, number) pairs, indices strictly rising, no entry equal to 0. An index that is
not listed reads 0, as after reset and after `FX_CLEAR` (R74). Log entry 10. -/
structure Memory (X : Type) where
  cells : List (Nat × X)
deriving DecidableEq, Repr

/-- The envelope stages (R29). -/
inductive Stage where
  | idle | attack | decay | sustain | release
deriving DecidableEq, Repr

/-- An envelope generator: stage and level (R29). -/
structure Env (X : Type) where
  stage : Stage
  out : X
deriving DecidableEq, Repr

/-- An oscillator: phase, increment, state of its noise generator (R27). -/
structure Osc (X : Type) where
  phase : X
  inc : X
  g : Nat
deriving DecidableEq, Repr

/-- A secondary engine: phase, increment, generator state (R28). -/
structure Sec (X : Type) where
  phase : X
  inc : X
  g : Nat
deriving DecidableEq, Repr

/-- A filter: the four values of the state-variable core and the four ladder stages (R30, C3). -/
structure Filter (X : Type) where
  low : X
  band : X
  high : X
  notch : X
  s0 : X
  s1 : X
  s2 : X
  s3 : X
deriving DecidableEq, Repr

/-- One voice slot (R26). -/
structure Voice (X : Type) where
  active : Bool
  note : Nat
  vel : X
  osc1 : Osc X
  osc2 : Osc X
  sec : Sec X
  flt : Filter X
  aenv : Env X
  fenv : Env X
deriving DecidableEq, Repr

/-- The shared LFO (R25). -/
structure Lfo (X : Type) where
  phase : X
  held : X
  g : Nat
deriving DecidableEq, Repr

/-- The chorus `CH` (R34): two rings, their shared write index, two LFO phases. -/
structure Chorus (X : Type) where
  bufL : Memory X
  bufR : Memory X
  w : Nat
  phL : X
  phR : X
deriving DecidableEq, Repr

/-- The delay `DL` (R34): two rings and their shared write index. -/
structure Delay (X : Type) where
  bufL : Memory X
  bufR : Memory X
  w : Nat
deriving DecidableEq, Repr

/-- One ring of the reverb with its own position: a comb or an allpass (R34). -/
structure Line (X : Type) where
  buf : Memory X
  pos : Nat
deriving DecidableEq, Repr

/-- The reverb `RV` (R34): `cb[0..3]` with `cp[0..3]`, `ab[0..1]` with `ap[0..1]`. -/
structure Reverb (X : Type) where
  comb0 : Line X
  comb1 : Line X
  comb2 : Line X
  comb3 : Line X
  ap0 : Line X
  ap1 : Line X
deriving DecidableEq, Repr

/-- An output frame, left first (R67). -/
structure Frame (X : Type) where
  left : X
  right : X
deriving DecidableEq, Repr

/-- What the host puts into the stream: a command word (R70, R344), or an assertion of the reset input with
the configuration to sample (R340). Log entries 6 and 8. -/
inductive HostEvent (X : Type) where
  | command (w : Word)
  | reset (cfg : Cfg X)
deriving DecidableEq, Repr

/-- The state `S = (P, LFO, V, FX, PRESET_INDEX)` of R20, the configuration sampled at reset (R340), and the
host's side of the block: the stream still to be consumed and the frames produced (log entries 4, 6, 7). -/
structure StateOf (X : Type) where
  cfg : Cfg X
  params : Params X
  lfo : Lfo X
  voices : List (Voice X)
  chorus : Chorus X
  delay : Delay X
  reverb : Reverb X
  presetIndex : Option Nat
  stream : List (HostEvent X)
  frames : List (Frame X)
deriving DecidableEq, Repr

/-- The machine's state: the state whose numbers are of `Scalar` (log entry 1). -/
structure State extends StateOf Scalar
deriving DecidableEq, Repr

/-! ## Reset (R31) -/

section

variable {X : Type} [Field X]

/-- A ring every element of which reads 0. -/
def Memory.empty : Memory X := ⟨[]⟩

/-- IDLE at level 0. -/
def Env.reset : Env X := ⟨.idle, 0⟩

/-- Filter state all zero. -/
def Filter.zero : Filter X := ⟨0, 0, 0, 0, 0, 0, 0, 0⟩

/-- An empty line at position 0. -/
def Line.reset : Line X := ⟨Memory.empty, 0⟩

/-- Voice `i` after reset: generator instances `4i + 1`, `4i + 2`, `4i + 3` (R12). -/
def Voice.reset (cfg : Cfg X) (i : Nat) : Voice X where
  active := false
  note := 0
  vel := 0
  osc1 := ⟨0, 0, cfg.seed (4 * i + 1)⟩
  osc2 := ⟨0, 0, cfg.seed (4 * i + 2)⟩
  sec := ⟨0, 0, cfg.seed (4 * i + 3)⟩
  flt := Filter.zero
  aenv := Env.reset
  fenv := Env.reset

/-- The state after a reset that samples `cfg` (R31, R340). -/
def StateOf.resetWith (cfg : Cfg X) : StateOf X where
  cfg := cfg
  params := cfg.resetParams
  lfo := ⟨0, 0, cfg.seed 0⟩
  voices := (List.range cfg.nv).map (Voice.reset cfg)
  chorus := ⟨Memory.empty, Memory.empty, 0, 0, 0⟩
  delay := ⟨Memory.empty, Memory.empty, 0⟩
  reverb := ⟨Line.reset, Line.reset, Line.reset, Line.reset, Line.reset, Line.reset⟩
  presetIndex := none
  stream := []
  frames := []

end

/-- The machine after a reset that samples `cfg`. -/
def State.resetWith (cfg : Cfg Scalar) : State := { StateOf.resetWith cfg with }

/-- The machine right after reset, with the reference configuration (log entry 5). -/
def State.reset : State := State.resetWith Cfg.reference

end Sys2Proof.Machine
end

