-- ==== Sys2Proof/Machine/Ops.lean ====
section
/-! DEFINITION. The shared operations: the operators of spec/00_scope.md R8, the ring primitives of
20_memory.md R62 to R64, the pseudo-random draw (R12), and the reset event (R340). TAKING AN EXCEPTION has no
operation here: the block has no exception, no trap entry and no return from one (60_exceptions.md R320, R326,
R327). -/

namespace Sys2Proof.Machine

/-! ## Operators (R8, R9)

`+ − × /` and the square are `N.add` to `N.div`, rounded by the number format. Comparison, `min`, `max`, `clamp`,
`|x|`, the sign of a literal and `floor` lose nothing and are exact, as the literals are (R9, R10; log entry 21). -/

/-- `clamp(x, lo, hi)`: bounds inclusive. -/
def clamp {α : Type} [LT α] [DecidableLT α] (x lo hi : α) : α :=
  if x < lo then lo else if hi < x then hi else x

section

variable {X : Type} [Field X] [LinearOrder X] [FloorRing X]

/-- `floor(x)` (R8). -/
def floor (x : X) : Int := ⌊x⌋

/-- `wrap1(x) = x − floor(x)`. -/
def wrap1 (N : Numerics X) (x : X) : X := N.sub x (floor x : X)

/-- `|x|`. -/
def absolute (x : X) : X := if x < 0 then -x else x

/-- The linear crossfade `(1 − mix) × dry + mix × wet` (R240). -/
def crossfade (N : Numerics X) (mix dry wet : X) : X := N.add (N.mul (N.sub 1 mix) dry) (N.mul mix wet)

/-- `draw(g)`: the value and the generator's next state (R12). -/
def draw (N : Numerics X) (g : Nat) : X × Nat := ((N.next g).2, (N.next g).1)

/-! ## Ring memory (R62 to R64) -/

/-- The number at a listed index, 0 elsewhere (R74). -/
def readCells : List (Nat × X) → Nat → X
  | [], _ => 0
  | (k, v) :: rest, a => if a = k then v else readCells rest a

/-- Store `v` at `a`, keeping the indices rising and listing no 0. -/
def writeCells : List (Nat × X) → Nat → X → List (Nat × X)
  | [], a, v => if v = 0 then [] else [(a, v)]
  | (k, u) :: rest, a, v =>
    if a < k then (if v = 0 then (k, u) :: rest else (a, v) :: (k, u) :: rest)
    else if a = k then (if v = 0 then rest else (a, v) :: rest)
    else (k, u) :: writeCells rest a v

/-- The element at index `a`. -/
def Memory.read (m : Memory X) (a : Nat) : X := readCells m.cells a

/-- The ring with `v` stored at index `a` and every other element as before. -/
def Memory.write (m : Memory X) (a : Nat) (v : X) : Memory X := ⟨writeCells m.cells a v⟩

/-- The indices of `cells` rise strictly from `lo`, and no listed number is 0. -/
def cellsWf : Nat → List (Nat × X) → Bool
  | _, [] => true
  | lo, (k, v) :: rest => lo ≤ k && v ≠ 0 && cellsWf (k + 1) rest

/-- The canonical form: indices strictly rising, no entry equal to what an unlisted index reads. -/
def Memory.wf (m : Memory X) : Bool := cellsWf 0 m.cells

/-- Every listed index lies in a ring of `n` elements (R65). -/
def Memory.fits (m : Memory X) (n : Nat) : Bool := m.cells.all fun c => c.1 < n

/-- `k mod n` as an index (R8, R62): non-negative for every integer `k`. -/
def ringIndex (n : Nat) (k : Int) : Nat := (k % (n : Int)).toNat

/-- `BufRead(b, k)` on a ring of `n` elements (R62). -/
def bufRead (n : Nat) (b : Memory X) (k : Int) : X := b.read (ringIndex n k)

/-- `BufWrite(b, k, v)` on a ring of `n` elements (R63). -/
def bufWrite (n : Nat) (b : Memory X) (k : Int) (v : X) : Memory X := b.write (ringIndex n k) v

/-- `FracRead(b, w, d)`: linear interpolation between the elements `floor(d)` and `floor(d) + 1` behind the
write index (R64). -/
def fracRead (N : Numerics X) (n : Nat) (b : Memory X) (w : Nat) (d : X) : X :=
  let i := floor d
  let fr := N.sub d (i : X)
  let a := bufRead n b ((w : Int) - i)
  let c := bufRead n b ((w : Int) - i - 1)
  N.add a (N.mul fr (N.sub c a))

/-- A ring position advanced by 1 modulo the length (R61). -/
def advancePos (n pos : Nat) : Nat := (pos + 1) % n

end

/-! ## The host's side -/

/-- The state after an assertion of the reset input that samples `cfg` (R340): the reset state, with the
stream still to come and the frames already delivered left to the host (log entry 8). -/
def StateOf.assertReset {X : Type} [Field X] (s : StateOf X) (cfg : Cfg X) : StateOf X :=
  { StateOf.resetWith cfg with stream := s.stream, frames := s.frames }

/-- Output one frame (R221). -/
def StateOf.output {X : Type} (s : StateOf X) (f : Frame X) : StateOf X := { s with frames := s.frames ++ [f] }

/-! ## Running a command -/

/-- What a command does: the state after it, under a number format (R9, R11). Every command is one `Effect`, over
any exact numbers, so that the machine and the reference instance of R9 run the same rules. -/
abbrev Effect (X : Type) : Type := Numerics X → StateOf X → StateOf X

/-- `CFG.NUM` and `CFG.PRNG` of the configuration sampled at reset (R7, R9, R12). -/
def State.num (s : State) : Numerics Scalar := Config.num s.cfg.num

/-- The machine runs a command under its own number format; every command completes (R11, R320). -/
def State.run (s : State) (effect : Effect Scalar) : Host.Outcome State Fault Refusal :=
  .next { effect s.num s.toStateOf with }

end Sys2Proof.Machine
end

