-- ==== Sys2Proof/Machine/Control.lean ====
section
/-! DEFINITION. The command NOP (spec/30_encoding.md R100). -/

namespace Sys2Proof.Machine

/-- `NOP`: nothing is read, nothing is written (R100). -/
def cmdNop {X : Type} : Effect X := fun _ s => s

/-- `NOP`, as the machine runs it. -/
def execNop (s : State) : Host.Outcome State Fault Refusal := s.run cmdNop

end Sys2Proof.Machine
end

