-- ==== Sys2Proof/Machine/Operands.lean ====
section
/-! DEFINITION. The operand forms (spec/30_encoding.md R93 to R95, R105). The note, the preset index and the
parameter id are read by the decoder. -/

namespace Sys2Proof.Machine

/-- Type Q: signed Q16.16, `sext_32(val) / 65536`, exact (R93, R14). -/
def operandQ {X : Type} [Field X] (val : BitVec 32) : X := (val.toInt : X) / 65536

/-- Type E(n): `min(zext_32(val), n − 1)` (R94). -/
def operandE (n : Nat) (val : BitVec 32) : Nat := min val.toNat (n - 1)

/-- 0 LP, 1 HP, 2 BP, 3 NOTCH (R275). -/
def filterModeOf : Nat → FilterMode
  | 0 => .lp
  | 1 => .hp
  | 2 => .bp
  | _ => .notch

/-- 0 SVF, 1 LADDER (R276). -/
def filterTypeOf : Nat → FilterType
  | 0 => .svf
  | _ => .ladder

/-- 0 PM, 1 MORPH, 2 NOISE (R286). -/
def secModeOf : Nat → SecMode
  | 0 => .pm
  | 1 => .morph
  | _ => .noise

/-- 0 SINE to 5 SAMPLE_HOLD (R298). -/
def lfoShapeOf : Nat → LfoShape
  | 0 => .sine
  | 1 => .triangle
  | 2 => .sawUp
  | 3 => .sawDown
  | 4 => .square
  | _ => .sampleHold

/-- `FX_CLEAR`'s mask: bit 0 chorus, bit 1 delay, bit 2 reverb (R105). -/
def maskChorus (mask : BitVec 3) : Bool := mask.getLsbD 0
def maskDelay (mask : BitVec 3) : Bool := mask.getLsbD 1
def maskReverb (mask : BitVec 3) : Bool := mask.getLsbD 2

end Sys2Proof.Machine
end

