-- ==== Sys2Proof/Machine/Oscillator.lean ====
section
/-! DEFINITION. The blending oscillator (spec/40_oscillator.md R110 to R121). A `process` answers its sample and
the unit after it. -/

namespace Sys2Proof.Machine

variable {X : Type} [Field X] [LinearOrder X] [FloorRing X]

/-- `osc.setFrequency(f)`: the phase is not touched (R112). -/
def Osc.setFrequency (N : Numerics X) (sr : SampleRate) (f : X) (o : Osc X) : Osc X :=
  { o with inc := N.div f (rate sr) }

/-- `osc.advance()` (R111). -/
def Osc.advance (N : Numerics X) (o : Osc X) : Osc X := { o with phase := wrap1 N (N.add o.phase o.inc) }

/-- `osc.sync()`: invoked by no rule (R120). -/
def Osc.sync (o : Osc X) : Osc X := { o with phase := 0 }

/-- The step correction of a discontinuity at phase 0 (R113). -/
def blep (N : Numerics X) (t dt : X) : X :=
  if t < dt then
    let u := N.div t dt
    N.sub (N.sub (N.mul 2 u) (N.mul u u)) 1
  else if N.sub 1 dt < t then
    let u := N.div (N.sub t 1) dt
    N.add (N.add (N.mul u u) (N.mul 2 u)) 1
  else 0

/-- `2π × t`: a phase in cycles as radians (R10). -/
def radians (N : Numerics X) (t : X) : X := N.mul (N.timesPi 2) t

/-- `sine(t) = sin(2π × t)` (R114). -/
def sineWave (N : Numerics X) (t : X) : X := N.sin (radians N t)

/-- `tri(t) = 1 − 4 × |t − 0.5|` (R115). -/
def triWave (N : Numerics X) (t : X) : X := N.sub 1 (N.mul 4 (absolute (N.sub t (1 / 2))))

/-- The ramp `2t − 1` (R116). -/
def ramp (N : Numerics X) (t : X) : X := N.sub (N.mul 2 t) 1

/-- `saw(t, dt) = (2t − 1) − blep(t, dt)` (R116). -/
def sawWave (N : Numerics X) (t dt : X) : X := N.sub (ramp N t) (blep N t dt)

/-- The square with both edges corrected (R117). -/
def squareWave (N : Numerics X) (t dt : X) : X :=
  let naive : X := if t < pulseWidth then 1 else -1
  N.sub (N.add naive (blep N t dt)) (blep N (wrap1 N (N.sub (N.add t 1) pulseWidth)) dt)

/-- The sum of the five weights, `W` (R119). -/
def mixSum (N : Numerics X) (P : Params X) : X :=
  N.add (N.add (N.add (N.add P.mixSine P.mixTri) P.mixSaw) P.mixSquare) P.mixNoise

/-- The weighted sum of the five generators' values (R119). `noise` is the draw of this call. -/
def weighted (N : Numerics X) (P : Params X) (t dt noise : X) : X :=
  N.add (N.add (N.add (N.add (N.mul P.mixSine (sineWave N t)) (N.mul P.mixTri (triWave N t)))
    (N.mul P.mixSaw (sawWave N t dt))) (N.mul P.mixSquare (squareWave N t dt))) (N.mul P.mixNoise noise)

/-- The blend, normalised by the weights' sum; silence where that sum is not positive (R119). -/
def blend (N : Numerics X) (P : Params X) (t dt noise : X) : X :=
  if 0 < mixSum N P then N.div (weighted N P t dt noise) (mixSum N P) else 0

/-- `osc.process()`: the pre-advance sample; one draw and one advance on every call (R118, R119). -/
def Osc.process (N : Numerics X) (P : Params X) (o : Osc X) : X × Osc X :=
  let n := draw N o.g
  (blend N P o.phase o.inc n.1, { o.advance N with g := n.2 })

end Sys2Proof.Machine
end

