-- ==== Sys2Proof/Machine/Effects.lean ====
section
/-! DEFINITION. The effects chain and the command FX_CLEAR (spec/47_effects.md R240 to R252). -/

namespace Sys2Proof.Machine

section

variable {X : Type} [Field X] [LinearOrder X] [FloorRing X]

/-! ## Chorus (R241, R242) -/

/-- The delay in samples at an LFO phase (R241). -/
def chorusOffset (N : Numerics X) (sr : SampleRate) (P : Params X) (ph : X) : X :=
  N.mul (N.add chorusBase (N.mul (N.mul P.chorusDepth chorusDepthSpan) (sineWave N ph))) (rate sr)

/-- One channel: the write precedes the read, and the sine is of the pre-advance phase (R241). Answers the
output, the ring and the phase. -/
def chorusChannel (N : Numerics X) (sr : SampleRate) (P : Params X) (w : Nat) (lfoRate x : X) (buf : Memory X)
    (ph : X) : X × Memory X × X :=
  let buf' := bufWrite chorusLen buf (w : Int) x
  let wet := fracRead N chorusLen buf' w (chorusOffset N sr P ph)
  (crossfade N P.chorusMix x wet, buf', wrap1 N (N.add ph (N.div lfoRate (rate sr))))

/-- `chorus(L, R)`: left, then right at 1.1 times the rate, then the shared index (R241). -/
def Chorus.process (N : Numerics X) (sr : SampleRate) (P : Params X) (x : Frame X) (c : Chorus X) :
    Frame X × Chorus X :=
  let l := chorusChannel N sr P c.w P.chorusRate x.left c.bufL c.phL
  let r := chorusChannel N sr P c.w (N.mul chorusDetune P.chorusRate) x.right c.bufR c.phR
  (⟨l.1, r.1⟩, ⟨l.2.1, r.2.1, advancePos chorusLen c.w, l.2.2, r.2.2⟩)

/-! ## Delay (R245) -/

/-- `D = clamp(floor(DELAY_TIME × SR), 1, DELAY_LEN − 1)` (R245). -/
def delaySamples (N : Numerics X) (sr : SampleRate) (P : Params X) : Int :=
  clamp (floor (N.mul P.delayTime (rate sr))) 1 ((delayLen sr : Int) - 1)

/-- One channel: the read precedes the write (R245). Answers the output and the ring. -/
def delayChannel (N : Numerics X) (sr : SampleRate) (P : Params X) (w : Nat) (x : X) (buf : Memory X) : X × Memory X :=
  let del := bufRead (delayLen sr) buf ((w : Int) - delaySamples N sr P)
  (crossfade N P.delayMix x del, bufWrite (delayLen sr) buf (w : Int) (N.add x (N.mul P.delayFeedback del)))

/-- `delay(L, R)` (R245). -/
def Delay.process (N : Numerics X) (sr : SampleRate) (P : Params X) (x : Frame X) (d : Delay X) : Frame X × Delay X :=
  let l := delayChannel N sr P d.w x.left d.bufL
  let r := delayChannel N sr P d.w x.right d.bufR
  (⟨l.1, r.1⟩, ⟨l.2, r.2, advancePos (delayLen sr) d.w⟩)

/-! ## Reverb (R247, R249) -/

/-- One comb: its delayed sample, with input plus feedback stored in its place (R249). -/
def combStep (N : Numerics X) (len : Nat) (feedback x : X) (c : Line X) : X × Line X :=
  let d := bufRead len c.buf (c.pos : Int)
  (d, ⟨bufWrite len c.buf (c.pos : Int) (N.add x (N.mul feedback d)), advancePos len c.pos⟩)

/-- One allpass: `output = −g × input + delayed`, `buffer[pos] = input + g × delayed` (R247, R249). -/
def allpassStep (N : Numerics X) (len : Nat) (y : X) (a : Line X) : X × Line X :=
  let d := bufRead len a.buf (a.pos : Int)
  (N.add (N.mul (-apGain) y) d,
    ⟨bufWrite len a.buf (a.pos : Int) (N.add y (N.mul apGain d)), advancePos len a.pos⟩)

/-- The wet signal for the averaged input `x`: four combs in parallel averaged, then two allpasses in series
(R249). -/
def Reverb.network (N : Numerics X) (P : Params X) (x : X) (v : Reverb X) : X × Reverb X :=
  let c0 := combStep N combLen0 (N.mul combBase0 P.reverbDecay) x v.comb0
  let c1 := combStep N combLen1 (N.mul combBase1 P.reverbDecay) x v.comb1
  let c2 := combStep N combLen2 (N.mul combBase2 P.reverbDecay) x v.comb2
  let c3 := combStep N combLen3 (N.mul combBase3 P.reverbDecay) x v.comb3
  let y := N.mul (N.add (N.add (N.add (N.add 0 c0.1) c1.1) c2.1) c3.1) (1 / 4)
  let a0 := allpassStep N apLen0 y v.ap0
  let a1 := allpassStep N apLen1 a0.1 v.ap1
  (a1.1, ⟨c0.2, c1.2, c2.2, c3.2, a0.2, a1.2⟩)

/-- `reverb(L, R)`: the network is fed the average, the dry signal is each channel's own (R249, C2). -/
def Reverb.process (N : Numerics X) (P : Params X) (x : Frame X) (v : Reverb X) : Frame X × Reverb X :=
  let n := v.network N P (N.mul (N.add x.left x.right) (1 / 2))
  (⟨crossfade N P.reverbMix x.left n.1, crossfade N P.reverbMix x.right n.1⟩, n.2)

/-! ## Clearing (R252) -/

/-- Both chorus rings to zero; index and phases kept. -/
def Chorus.clear (c : Chorus X) : Chorus X := { c with bufL := Memory.empty, bufR := Memory.empty }

/-- Both delay rings to zero; index kept. -/
def Delay.clear (d : Delay X) : Delay X := { d with bufL := Memory.empty, bufR := Memory.empty }

/-- A comb or allpass ring to zero; position kept. -/
def Line.clear (l : Line X) : Line X := { l with buf := Memory.empty }

/-- The six reverb rings to zero; positions kept. -/
def Reverb.clear (v : Reverb X) : Reverb X :=
  ⟨v.comb0.clear, v.comb1.clear, v.comb2.clear, v.comb3.clear, v.ap0.clear, v.ap1.clear⟩

/-- `FX_CLEAR mask` (R252). -/
def cmdFxClear (mask : BitVec 3) : Effect X := fun _ s =>
  { s with
    chorus := if maskChorus mask then s.chorus.clear else s.chorus
    delay := if maskDelay mask then s.delay.clear else s.delay
    reverb := if maskReverb mask then s.reverb.clear else s.reverb }

end

/-- `FX_CLEAR`, as the machine runs it. -/
def execFxClear (mask : BitVec 3) (s : State) : Host.Outcome State Fault Refusal := s.run (cmdFxClear mask)

end Sys2Proof.Machine
end

