-- ==== Sys2Proof/Machine/Lfo.lean ====
section
/-! DEFINITION. The LFO and the command LFO_SYNC (spec/43_lfo.md R160 to R166). -/

namespace Sys2Proof.Machine

section

variable {X : Type} [Field X] [LinearOrder X] [FloorRing X]

/-- `lfoShape(k, p, held)` (R163). -/
def lfoValue (N : Numerics X) (k : LfoShape) (p held : X) : X :=
  match k with
  | .sine => sineWave N p
  | .triangle => triWave N p
  | .sawUp => ramp N p
  | .sawDown => N.sub 1 (N.mul 2 p)
  | .square => if p < 1 / 2 then 1 else -1
  | .sampleHold => held

/-- The phase after one step (R161, R164). -/
def lfoNextPhase (N : Numerics X) (sr : SampleRate) (P : Params X) (p : X) : X :=
  wrap1 N (N.add p (N.div P.lfoRate (rate sr)))

/-- `LFO.process()`: the value of the pre-advance phase; a draw exactly on a wrap, whatever the shape (R164). -/
def Lfo.process (N : Numerics X) (sr : SampleRate) (P : Params X) (l : Lfo X) : X × Lfo X :=
  let v := lfoValue N P.lfoShape l.phase l.held
  let np := lfoNextPhase N sr P l.phase
  if np < l.phase then
    let n := draw N l.g
    (v, ⟨np, n.1, n.2⟩)
  else (v, { l with phase := np })

/-- `LFO.phase <- 0`; `held` and the generator are kept, nothing is drawn (R166). -/
def Lfo.sync (l : Lfo X) : Lfo X := { l with phase := 0 }

/-- `LFO_SYNC` (R166). -/
def cmdLfoSync : Effect X := fun _ s => { s with lfo := s.lfo.sync }

end

/-- `LFO_SYNC`, as the machine runs it. -/
def execLfoSync (s : State) : Host.Outcome State Fault Refusal := s.run cmdLfoSync

end Sys2Proof.Machine
end

