-- ==== Sys2Proof/Machine/Parameters.lean ====
section
/-! DEFINITION. The parameter interface: the write of each register, and the 38 SETP commands
(spec/48_parameters.md R265 to R308). A write takes the decoded value, clamps it and stores it in that one
register; LOAD_PRESET uses the same writes (46_voice_manager.md R220). -/

namespace Sys2Proof.Machine

section

variable {X : Type} [Field X] [LinearOrder X] [FloorRing X]

/-! ## The register writes -/

/-- The write-time upper bound of CUTOFF, by the filter type in force (R272). -/
def cutoffMax (N : Numerics X) (sr : SampleRate) (P : Params X) : X :=
  match P.filterType with
  | .svf => N.mul (45 / 100) (rate sr)
  | .ladder => N.mul (225 / 1000) (rate sr)

/-- The write-time upper bound of RESONANCE, by the filter type in force (R273). -/
def resonanceMax (P : Params X) : X :=
  match P.filterType with
  | .svf => 99 / 100
  | .ladder => 1

/-- R266. -/
def Params.setMixSine (v : X) (P : Params X) : Params X := { P with mixSine := clamp v 0 1 }

/-- R267. -/
def Params.setMixTri (v : X) (P : Params X) : Params X := { P with mixTri := clamp v 0 1 }

/-- R268. -/
def Params.setMixSaw (v : X) (P : Params X) : Params X := { P with mixSaw := clamp v 0 1 }

/-- R269. -/
def Params.setMixSquare (v : X) (P : Params X) : Params X := { P with mixSquare := clamp v 0 1 }

/-- R270. -/
def Params.setMixNoise (v : X) (P : Params X) : Params X := { P with mixNoise := clamp v 0 1 }

/-- R271. -/
def Params.setOscMix (v : X) (P : Params X) : Params X := { P with oscMix := clamp v 0 1 }

/-- R272. -/
def Params.setCutoff (N : Numerics X) (sr : SampleRate) (v : X) (P : Params X) : Params X :=
  { P with cutoff := clamp v 20 (cutoffMax N sr P) }

/-- R273. -/
def Params.setResonance (v : X) (P : Params X) : Params X :=
  { P with resonance := clamp v 0 (resonanceMax P) }

/-- R274. -/
def Params.setDrive (v : X) (P : Params X) : Params X := { P with drive := clamp v 0 1 }

/-- R275. -/
def Params.setFilterMode (v : FilterMode) (P : Params X) : Params X := { P with filterMode := v }

/-- R276. -/
def Params.setFilterType (v : FilterType) (P : Params X) : Params X := { P with filterType := v }

/-- R277. -/
def Params.setEnvDepth (v : X) (P : Params X) : Params X := { P with envDepth := clamp v 0 1 }

/-- R278. -/
def Params.setAmpAttack (v : X) (P : Params X) : Params X := { P with ampAttack := clamp v (1 / 1000) 10 }

/-- R279. -/
def Params.setAmpDecay (v : X) (P : Params X) : Params X := { P with ampDecay := clamp v (1 / 1000) 10 }

/-- R280. -/
def Params.setAmpSustain (v : X) (P : Params X) : Params X := { P with ampSustain := clamp v 0 1 }

/-- R281. -/
def Params.setAmpRelease (v : X) (P : Params X) : Params X := { P with ampRelease := clamp v (1 / 1000) 10 }

/-- R282. -/
def Params.setFltAttack (v : X) (P : Params X) : Params X := { P with fltAttack := clamp v (1 / 1000) 10 }

/-- R283. -/
def Params.setFltDecay (v : X) (P : Params X) : Params X := { P with fltDecay := clamp v (1 / 1000) 10 }

/-- R284. -/
def Params.setFltSustain (v : X) (P : Params X) : Params X := { P with fltSustain := clamp v 0 1 }

/-- R285. -/
def Params.setFltRelease (v : X) (P : Params X) : Params X := { P with fltRelease := clamp v (1 / 1000) 10 }

/-- R286. -/
def Params.setSecMode (v : SecMode) (P : Params X) : Params X := { P with secMode := v }

/-- R287. -/
def Params.setSecIndex (v : X) (P : Params X) : Params X := { P with secIndex := clamp v 0 1 }

/-- R288. -/
def Params.setSecRatio (v : X) (P : Params X) : Params X := { P with secRatio := clamp v 0 1 }

/-- R289. -/
def Params.setSecShape (v : X) (P : Params X) : Params X := { P with secShape := clamp v 0 1 }

/-- R290. -/
def Params.setSecLevel (v : X) (P : Params X) : Params X := { P with secLevel := clamp v 0 1 }

/-- R296. -/
def Params.setLfoRate (v : X) (P : Params X) : Params X := { P with lfoRate := clamp v (1 / 100) 100 }

/-- The write port LFO_RATE_NORM stores `0.1 × 500^p` into LFO_RATE (R297). -/
def Params.setLfoRateNorm (N : Numerics X) (v : X) (P : Params X) : Params X :=
  let p := clamp v 0 1
  { P with lfoRate := clamp (N.mul (1 / 10) (N.exp (N.mul p N.ln500))) (1 / 100) 100 }

/-- R298. -/
def Params.setLfoShape (v : LfoShape) (P : Params X) : Params X := { P with lfoShape := v }

/-- R299. -/
def Params.setLfoDepth (v : X) (P : Params X) : Params X := { P with lfoDepth := clamp v 0 1 }

/-- R300. -/
def Params.setMasterVolume (v : X) (P : Params X) : Params X := { P with masterVolume := clamp v 0 1 }

/-- R301. -/
def Params.setChorusRate (v : X) (P : Params X) : Params X := { P with chorusRate := clamp v (1 / 100) 100 }

/-- R302. -/
def Params.setChorusDepth (v : X) (P : Params X) : Params X := { P with chorusDepth := clamp v 0 1 }

/-- R303. -/
def Params.setChorusMix (v : X) (P : Params X) : Params X := { P with chorusMix := clamp v 0 1 }

/-- R304. -/
def Params.setDelayTime (v : X) (P : Params X) : Params X := { P with delayTime := clamp v 0 delayMaxS }

/-- R305. -/
def Params.setDelayFeedback (v : X) (P : Params X) : Params X := { P with delayFeedback := clamp v 0 (95 / 100) }

/-- R306. -/
def Params.setDelayMix (v : X) (P : Params X) : Params X := { P with delayMix := clamp v 0 1 }

/-- R307. -/
def Params.setReverbDecay (v : X) (P : Params X) : Params X := { P with reverbDecay := clamp v 0 (99 / 100) }

/-- R308. -/
def Params.setReverbMix (v : X) (P : Params X) : Params X := { P with reverbMix := clamp v 0 1 }

/-! ## The commands -/

/-- The state with its parameter file replaced. -/
def StateOf.withParams {X : Type} (s : StateOf X) (P : Params X) : StateOf X := { s with params := P }

/-- `SETP.MIX_SINE` (R266). -/
def cmdSetpMixSine (val : BitVec 32) : Effect X := fun _ s => s.withParams (Params.setMixSine (operandQ val) s.params)

/-- `SETP.MIX_TRI` (R267). -/
def cmdSetpMixTri (val : BitVec 32) : Effect X := fun _ s => s.withParams (Params.setMixTri (operandQ val) s.params)

/-- `SETP.MIX_SAW` (R268). -/
def cmdSetpMixSaw (val : BitVec 32) : Effect X := fun _ s => s.withParams (Params.setMixSaw (operandQ val) s.params)

/-- `SETP.MIX_SQUARE` (R269). -/
def cmdSetpMixSquare (val : BitVec 32) : Effect X := fun _ s =>
  s.withParams (Params.setMixSquare (operandQ val) s.params)

/-- `SETP.MIX_NOISE` (R270). -/
def cmdSetpMixNoise (val : BitVec 32) : Effect X := fun _ s =>
  s.withParams (Params.setMixNoise (operandQ val) s.params)

/-- `SETP.OSC_MIX` (R271). -/
def cmdSetpOscMix (val : BitVec 32) : Effect X := fun _ s => s.withParams (Params.setOscMix (operandQ val) s.params)

/-- `SETP.CUTOFF` (R272). -/
def cmdSetpCutoff (val : BitVec 32) : Effect X := fun N s =>
  s.withParams (Params.setCutoff N s.cfg.sr (operandQ val) s.params)

/-- `SETP.RESONANCE` (R273). -/
def cmdSetpResonance (val : BitVec 32) : Effect X := fun _ s =>
  s.withParams (Params.setResonance (operandQ val) s.params)

/-- `SETP.DRIVE` (R274). -/
def cmdSetpDrive (val : BitVec 32) : Effect X := fun _ s => s.withParams (Params.setDrive (operandQ val) s.params)

/-- `SETP.FILTER_MODE` (R275). -/
def cmdSetpFilterMode (val : BitVec 32) : Effect X := fun _ s =>
  s.withParams (Params.setFilterMode (filterModeOf (operandE 4 val)) s.params)

/-- `SETP.FILTER_TYPE` (R276). -/
def cmdSetpFilterType (val : BitVec 32) : Effect X := fun _ s =>
  s.withParams (Params.setFilterType (filterTypeOf (operandE 2 val)) s.params)

/-- `SETP.ENV_DEPTH` (R277). -/
def cmdSetpEnvDepth (val : BitVec 32) : Effect X := fun _ s =>
  s.withParams (Params.setEnvDepth (operandQ val) s.params)

/-- `SETP.AMP_ATTACK` (R278). -/
def cmdSetpAmpAttack (val : BitVec 32) : Effect X := fun _ s =>
  s.withParams (Params.setAmpAttack (operandQ val) s.params)

/-- `SETP.AMP_DECAY` (R279). -/
def cmdSetpAmpDecay (val : BitVec 32) : Effect X := fun _ s =>
  s.withParams (Params.setAmpDecay (operandQ val) s.params)

/-- `SETP.AMP_SUSTAIN` (R280). -/
def cmdSetpAmpSustain (val : BitVec 32) : Effect X := fun _ s =>
  s.withParams (Params.setAmpSustain (operandQ val) s.params)

/-- `SETP.AMP_RELEASE` (R281). -/
def cmdSetpAmpRelease (val : BitVec 32) : Effect X := fun _ s =>
  s.withParams (Params.setAmpRelease (operandQ val) s.params)

/-- `SETP.FLT_ATTACK` (R282). -/
def cmdSetpFltAttack (val : BitVec 32) : Effect X := fun _ s =>
  s.withParams (Params.setFltAttack (operandQ val) s.params)

/-- `SETP.FLT_DECAY` (R283). -/
def cmdSetpFltDecay (val : BitVec 32) : Effect X := fun _ s =>
  s.withParams (Params.setFltDecay (operandQ val) s.params)

/-- `SETP.FLT_SUSTAIN` (R284). -/
def cmdSetpFltSustain (val : BitVec 32) : Effect X := fun _ s =>
  s.withParams (Params.setFltSustain (operandQ val) s.params)

/-- `SETP.FLT_RELEASE` (R285). -/
def cmdSetpFltRelease (val : BitVec 32) : Effect X := fun _ s =>
  s.withParams (Params.setFltRelease (operandQ val) s.params)

/-- `SETP.SEC_MODE` (R286). -/
def cmdSetpSecMode (val : BitVec 32) : Effect X := fun _ s =>
  s.withParams (Params.setSecMode (secModeOf (operandE 3 val)) s.params)

/-- `SETP.SEC_INDEX` (R287). -/
def cmdSetpSecIndex (val : BitVec 32) : Effect X := fun _ s =>
  s.withParams (Params.setSecIndex (operandQ val) s.params)

/-- `SETP.SEC_RATIO` (R288). -/
def cmdSetpSecRatio (val : BitVec 32) : Effect X := fun _ s =>
  s.withParams (Params.setSecRatio (operandQ val) s.params)

/-- `SETP.SEC_SHAPE` (R289). -/
def cmdSetpSecShape (val : BitVec 32) : Effect X := fun _ s =>
  s.withParams (Params.setSecShape (operandQ val) s.params)

/-- `SETP.SEC_LEVEL` (R290). -/
def cmdSetpSecLevel (val : BitVec 32) : Effect X := fun _ s =>
  s.withParams (Params.setSecLevel (operandQ val) s.params)

/-- `SETP.LFO_RATE` (R296). -/
def cmdSetpLfoRate (val : BitVec 32) : Effect X := fun _ s => s.withParams (Params.setLfoRate (operandQ val) s.params)

/-- `SETP.LFO_RATE_NORM` (R297). -/
def cmdSetpLfoRateNorm (val : BitVec 32) : Effect X := fun N s =>
  s.withParams (Params.setLfoRateNorm N (operandQ val) s.params)

/-- `SETP.LFO_SHAPE` (R298). -/
def cmdSetpLfoShape (val : BitVec 32) : Effect X := fun _ s =>
  s.withParams (Params.setLfoShape (lfoShapeOf (operandE 6 val)) s.params)

/-- `SETP.LFO_DEPTH` (R299). -/
def cmdSetpLfoDepth (val : BitVec 32) : Effect X := fun _ s =>
  s.withParams (Params.setLfoDepth (operandQ val) s.params)

/-- `SETP.MASTER_VOLUME` (R300). -/
def cmdSetpMasterVolume (val : BitVec 32) : Effect X := fun _ s =>
  s.withParams (Params.setMasterVolume (operandQ val) s.params)

/-- `SETP.CHORUS_RATE` (R301). -/
def cmdSetpChorusRate (val : BitVec 32) : Effect X := fun _ s =>
  s.withParams (Params.setChorusRate (operandQ val) s.params)

/-- `SETP.CHORUS_DEPTH` (R302). -/
def cmdSetpChorusDepth (val : BitVec 32) : Effect X := fun _ s =>
  s.withParams (Params.setChorusDepth (operandQ val) s.params)

/-- `SETP.CHORUS_MIX` (R303). -/
def cmdSetpChorusMix (val : BitVec 32) : Effect X := fun _ s =>
  s.withParams (Params.setChorusMix (operandQ val) s.params)

/-- `SETP.DELAY_TIME` (R304). -/
def cmdSetpDelayTime (val : BitVec 32) : Effect X := fun _ s =>
  s.withParams (Params.setDelayTime (operandQ val) s.params)

/-- `SETP.DELAY_FEEDBACK` (R305). -/
def cmdSetpDelayFeedback (val : BitVec 32) : Effect X := fun _ s =>
  s.withParams (Params.setDelayFeedback (operandQ val) s.params)

/-- `SETP.DELAY_MIX` (R306). -/
def cmdSetpDelayMix (val : BitVec 32) : Effect X := fun _ s =>
  s.withParams (Params.setDelayMix (operandQ val) s.params)

/-- `SETP.REVERB_DECAY` (R307). -/
def cmdSetpReverbDecay (val : BitVec 32) : Effect X := fun _ s =>
  s.withParams (Params.setReverbDecay (operandQ val) s.params)

/-- `SETP.REVERB_MIX` (R308). -/
def cmdSetpReverbMix (val : BitVec 32) : Effect X := fun _ s =>
  s.withParams (Params.setReverbMix (operandQ val) s.params)

end

/-! ## The commands, as the machine runs them -/

/-- `SETP.MIX_SINE` (R266). -/
def execSetpMixSine (val : BitVec 32) (s : State) : Host.Outcome State Fault Refusal := s.run (cmdSetpMixSine val)

/-- `SETP.MIX_TRI` (R267). -/
def execSetpMixTri (val : BitVec 32) (s : State) : Host.Outcome State Fault Refusal := s.run (cmdSetpMixTri val)

/-- `SETP.MIX_SAW` (R268). -/
def execSetpMixSaw (val : BitVec 32) (s : State) : Host.Outcome State Fault Refusal := s.run (cmdSetpMixSaw val)

/-- `SETP.MIX_SQUARE` (R269). -/
def execSetpMixSquare (val : BitVec 32) (s : State) : Host.Outcome State Fault Refusal := s.run (cmdSetpMixSquare val)

/-- `SETP.MIX_NOISE` (R270). -/
def execSetpMixNoise (val : BitVec 32) (s : State) : Host.Outcome State Fault Refusal := s.run (cmdSetpMixNoise val)

/-- `SETP.OSC_MIX` (R271). -/
def execSetpOscMix (val : BitVec 32) (s : State) : Host.Outcome State Fault Refusal := s.run (cmdSetpOscMix val)

/-- `SETP.CUTOFF` (R272). -/
def execSetpCutoff (val : BitVec 32) (s : State) : Host.Outcome State Fault Refusal := s.run (cmdSetpCutoff val)

/-- `SETP.RESONANCE` (R273). -/
def execSetpResonance (val : BitVec 32) (s : State) : Host.Outcome State Fault Refusal := s.run (cmdSetpResonance val)

/-- `SETP.DRIVE` (R274). -/
def execSetpDrive (val : BitVec 32) (s : State) : Host.Outcome State Fault Refusal := s.run (cmdSetpDrive val)

/-- `SETP.FILTER_MODE` (R275). -/
def execSetpFilterMode (val : BitVec 32) (s : State) : Host.Outcome State Fault Refusal :=
  s.run (cmdSetpFilterMode val)

/-- `SETP.FILTER_TYPE` (R276). -/
def execSetpFilterType (val : BitVec 32) (s : State) : Host.Outcome State Fault Refusal :=
  s.run (cmdSetpFilterType val)

/-- `SETP.ENV_DEPTH` (R277). -/
def execSetpEnvDepth (val : BitVec 32) (s : State) : Host.Outcome State Fault Refusal := s.run (cmdSetpEnvDepth val)

/-- `SETP.AMP_ATTACK` (R278). -/
def execSetpAmpAttack (val : BitVec 32) (s : State) : Host.Outcome State Fault Refusal := s.run (cmdSetpAmpAttack val)

/-- `SETP.AMP_DECAY` (R279). -/
def execSetpAmpDecay (val : BitVec 32) (s : State) : Host.Outcome State Fault Refusal := s.run (cmdSetpAmpDecay val)

/-- `SETP.AMP_SUSTAIN` (R280). -/
def execSetpAmpSustain (val : BitVec 32) (s : State) : Host.Outcome State Fault Refusal :=
  s.run (cmdSetpAmpSustain val)

/-- `SETP.AMP_RELEASE` (R281). -/
def execSetpAmpRelease (val : BitVec 32) (s : State) : Host.Outcome State Fault Refusal :=
  s.run (cmdSetpAmpRelease val)

/-- `SETP.FLT_ATTACK` (R282). -/
def execSetpFltAttack (val : BitVec 32) (s : State) : Host.Outcome State Fault Refusal := s.run (cmdSetpFltAttack val)

/-- `SETP.FLT_DECAY` (R283). -/
def execSetpFltDecay (val : BitVec 32) (s : State) : Host.Outcome State Fault Refusal := s.run (cmdSetpFltDecay val)

/-- `SETP.FLT_SUSTAIN` (R284). -/
def execSetpFltSustain (val : BitVec 32) (s : State) : Host.Outcome State Fault Refusal :=
  s.run (cmdSetpFltSustain val)

/-- `SETP.FLT_RELEASE` (R285). -/
def execSetpFltRelease (val : BitVec 32) (s : State) : Host.Outcome State Fault Refusal :=
  s.run (cmdSetpFltRelease val)

/-- `SETP.SEC_MODE` (R286). -/
def execSetpSecMode (val : BitVec 32) (s : State) : Host.Outcome State Fault Refusal := s.run (cmdSetpSecMode val)

/-- `SETP.SEC_INDEX` (R287). -/
def execSetpSecIndex (val : BitVec 32) (s : State) : Host.Outcome State Fault Refusal := s.run (cmdSetpSecIndex val)

/-- `SETP.SEC_RATIO` (R288). -/
def execSetpSecRatio (val : BitVec 32) (s : State) : Host.Outcome State Fault Refusal := s.run (cmdSetpSecRatio val)

/-- `SETP.SEC_SHAPE` (R289). -/
def execSetpSecShape (val : BitVec 32) (s : State) : Host.Outcome State Fault Refusal := s.run (cmdSetpSecShape val)

/-- `SETP.SEC_LEVEL` (R290). -/
def execSetpSecLevel (val : BitVec 32) (s : State) : Host.Outcome State Fault Refusal := s.run (cmdSetpSecLevel val)

/-- `SETP.LFO_RATE` (R296). -/
def execSetpLfoRate (val : BitVec 32) (s : State) : Host.Outcome State Fault Refusal := s.run (cmdSetpLfoRate val)

/-- `SETP.LFO_RATE_NORM` (R297). -/
def execSetpLfoRateNorm (val : BitVec 32) (s : State) : Host.Outcome State Fault Refusal :=
  s.run (cmdSetpLfoRateNorm val)

/-- `SETP.LFO_SHAPE` (R298). -/
def execSetpLfoShape (val : BitVec 32) (s : State) : Host.Outcome State Fault Refusal := s.run (cmdSetpLfoShape val)

/-- `SETP.LFO_DEPTH` (R299). -/
def execSetpLfoDepth (val : BitVec 32) (s : State) : Host.Outcome State Fault Refusal := s.run (cmdSetpLfoDepth val)

/-- `SETP.MASTER_VOLUME` (R300). -/
def execSetpMasterVolume (val : BitVec 32) (s : State) : Host.Outcome State Fault Refusal :=
  s.run (cmdSetpMasterVolume val)

/-- `SETP.CHORUS_RATE` (R301). -/
def execSetpChorusRate (val : BitVec 32) (s : State) : Host.Outcome State Fault Refusal :=
  s.run (cmdSetpChorusRate val)

/-- `SETP.CHORUS_DEPTH` (R302). -/
def execSetpChorusDepth (val : BitVec 32) (s : State) : Host.Outcome State Fault Refusal :=
  s.run (cmdSetpChorusDepth val)

/-- `SETP.CHORUS_MIX` (R303). -/
def execSetpChorusMix (val : BitVec 32) (s : State) : Host.Outcome State Fault Refusal := s.run (cmdSetpChorusMix val)

/-- `SETP.DELAY_TIME` (R304). -/
def execSetpDelayTime (val : BitVec 32) (s : State) : Host.Outcome State Fault Refusal := s.run (cmdSetpDelayTime val)

/-- `SETP.DELAY_FEEDBACK` (R305). -/
def execSetpDelayFeedback (val : BitVec 32) (s : State) : Host.Outcome State Fault Refusal :=
  s.run (cmdSetpDelayFeedback val)

/-- `SETP.DELAY_MIX` (R306). -/
def execSetpDelayMix (val : BitVec 32) (s : State) : Host.Outcome State Fault Refusal := s.run (cmdSetpDelayMix val)

/-- `SETP.REVERB_DECAY` (R307). -/
def execSetpReverbDecay (val : BitVec 32) (s : State) : Host.Outcome State Fault Refusal :=
  s.run (cmdSetpReverbDecay val)

/-- `SETP.REVERB_MIX` (R308). -/
def execSetpReverbMix (val : BitVec 32) (s : State) : Host.Outcome State Fault Refusal := s.run (cmdSetpReverbMix val)

end Sys2Proof.Machine
end

