-- ==== Sys2Proof/Machine/Flags.lean ====
section
/-! DEFINITION. The status predicates (spec/10_state.md R32; there are no condition codes) and the status port
(R37). -/

namespace Sys2Proof.Machine

/-- `envActive(e)`: stage ≠ IDLE (R32, R141). -/
def envActive {X : Type} (e : Env X) : Bool := e.stage ≠ .idle

/-- `voiceActive`: the active flag AND an amplitude envelope that is not IDLE (R32, R201). -/
def voiceActive {X : Type} (v : Voice X) : Bool := v.active && envActive v.aenv

/-- The stage numbers of the status port (R29). -/
def Stage.code : Stage → Nat
  | .idle => 0
  | .attack => 1
  | .decay => 2
  | .sustain => 3
  | .release => 4

/-- What the status port shows of one voice (R37). -/
structure VoiceStatus where
  active : Bool
  note : Nat
  ampStage : Nat
  fltStage : Nat
deriving DecidableEq, Repr

/-- The status port: read-only, combinational, no command (R37, D28; log entry 14). -/
def StateOf.statusPort {X : Type} (s : StateOf X) : List VoiceStatus × Option Nat :=
  (s.voices.map fun v => ⟨voiceActive v, v.note, v.aenv.stage.code, v.fenv.stage.code⟩, s.presetIndex)

end Sys2Proof.Machine
end

