-- ==== Sys2Proof/Machine/Envelope.lean ====
section
/-! DEFINITION. The envelope generator (spec/42_envelope.md R140 to R154). -/

namespace Sys2Proof.Machine

variable {X : Type} [Field X] [LinearOrder X] [FloorRing X]

/-- The four registers an envelope instance reads: attack, decay, sustain, release. -/
structure Adsr (X : Type) where
  attack : X
  decay : X
  sustain : X
  release : X
deriving DecidableEq, Repr

/-- The amplitude envelope's registers. -/
def ampAdsr (P : Params X) : Adsr X := ⟨P.ampAttack, P.ampDecay, P.ampSustain, P.ampRelease⟩

/-- The filter envelope's registers. -/
def fltAdsr (P : Params X) : Adsr X := ⟨P.fltAttack, P.fltDecay, P.fltSustain, P.fltRelease⟩

/-- `coef(T) = 1 − exp(−2.2 / (T × SR))` (R143). A time of 0, which no register holds (R142), divides by 0:
log entry 11. -/
def coef (N : Numerics X) (sr : SampleRate) (time : X) : X :=
  N.sub 1 (N.exp (N.div (-(22 / 10)) (N.mul time (rate sr))))

/-- `env.noteOn()`: the level is kept (R145). -/
def Env.noteOn (e : Env X) : Env X := { e with stage := .attack }

/-- `env.noteOff()`: from IDLE nothing (R146). -/
def Env.noteOff (e : Env X) : Env X := if envActive e then { e with stage := .release } else e

/-- `env.kill()` (R147). -/
def Env.kill (_ : Env X) : Env X := ⟨.idle, 0⟩

/-- The update law `output += coefficient × (target − output)` (R144). -/
def approach (N : Numerics X) (c target out : X) : X := N.add out (N.mul c (N.sub target out))

/-- ATTACK: toward 1.3, clamped at 1 (R149). -/
def attackStep (N : Numerics X) (c out : X) : Env X :=
  let o := approach N c (13 / 10) out
  if 1 ≤ o then ⟨.decay, 1⟩ else ⟨.attack, o⟩

/-- DECAY: toward the sustain level, snapped within 0.001 of it (R150). -/
def decayStep (N : Numerics X) (c sustain out : X) : Env X :=
  let o := approach N c sustain out
  if absolute (N.sub o sustain) ≤ 1 / 1000 then ⟨.sustain, sustain⟩ else ⟨.decay, o⟩

/-- RELEASE: toward 0, snapped at or below 0.001 (R152). -/
def releaseStep (N : Numerics X) (c out : X) : Env X :=
  let o := approach N c 0 out
  if o ≤ 1 / 1000 then ⟨.idle, 0⟩ else ⟨.release, o⟩

/-- `env.process()`: the envelope after one step, whose `out` is the level returned (R148 to R153). -/
def Env.process (N : Numerics X) (sr : SampleRate) (r : Adsr X) (e : Env X) : Env X :=
  match e.stage with
  | .attack => attackStep N (coef N sr r.attack) e.out
  | .decay => decayStep N (coef N sr r.decay) r.sustain e.out
  | .sustain => ⟨.sustain, r.sustain⟩
  | .release => releaseStep N (coef N sr r.release) e.out
  | .idle => e

end Sys2Proof.Machine
end

