-- ==== Sys2Proof/Machine/Filter.lean ====
section
/-! DEFINITION. The resonant filters (spec/44_filter.md R175 to R185). -/

namespace Sys2Proof.Machine

variable {X : Type} [Field X] [LinearOrder X] [FloorRing X]

/-- `flt.reset()`: both cores to zero (R176). -/
def Filter.reset (_ : Filter X) : Filter X := Filter.zero

/-- The soft clip `sc` (R179). -/
def softClip (N : Numerics X) (x : X) : X :=
  if 3 < x then 1 else if x < -3 then -1
  else N.div (N.mul x (N.add 27 (N.mul x x))) (N.add 27 (N.mul 9 (N.mul x x)))

/-! ## State-variable core -/

/-- The SVF's cutoff in its own range: [20, 0.9 × Nyquist] (R180). -/
def svfCutoff (N : Numerics X) (sr : SampleRate) (fc : X) : X := clamp fc 20 (N.div (N.mul (9 / 10) (rate sr)) 2)

/-- `f = 2 × sin(π × fcc / SR)` (R180). -/
def svfF (N : Numerics X) (sr : SampleRate) (fc : X) : X :=
  N.mul 2 (N.sin (N.div (N.timesPi (svfCutoff N sr fc)) (rate sr)))

/-- `q = 2 − 2 × min(RESONANCE, 0.99)` (R180). -/
def svfQ (N : Numerics X) (P : Params X) : X := N.sub 2 (N.mul 2 (min P.resonance (99 / 100)))

/-- `x × (1 + 3 × DRIVE)` (R181, R184). -/
def driven (N : Numerics X) (P : Params X) (x : X) : X := N.mul x (N.add 1 (N.mul 3 P.drive))

/-- The input after the optional drive: a soft clip exactly when DRIVE > 0 (R181). -/
def svfInput (N : Numerics X) (P : Params X) (x : X) : X :=
  if 0 < P.drive then softClip N (driven N P x) else x

/-- One integration pass, in the written order (R181). -/
def svfPass (N : Numerics X) (f q x : X) (s : Filter X) : Filter X :=
  let low := N.add s.low (N.mul f s.band)
  let high := N.sub (N.sub x low) (N.mul q s.band)
  let band := N.add s.band (N.mul f high)
  let notch := N.add high low
  { s with low := low, band := band, high := high, notch := notch }

/-- The output the mode selects (R177, R181). -/
def svfTap (mode : FilterMode) (s : Filter X) : X :=
  match mode with
  | .lp => s.low
  | .hp => s.high
  | .bp => s.band
  | .notch => s.notch

/-- `svf.process(x, fc)`: two passes on the driven input, and a clip of the output alone when DRIVE > 0.5
(R181). -/
def svfProcess (N : Numerics X) (sr : SampleRate) (P : Params X) (x fc : X) (s : Filter X) : X × Filter X :=
  let xd := svfInput N P x
  let f := svfF N sr fc
  let q := svfQ N P
  let s' := svfPass N f q xd (svfPass N f q xd s)
  let y := svfTap P.filterMode s'
  (if 1 / 2 < P.drive then softClip N y else y, s')

/-! ## Ladder core -/

/-- The ladder's cutoff in its own range: [20, 0.45 × Nyquist] (R183). -/
def ladderCutoff (N : Numerics X) (sr : SampleRate) (fc : X) : X :=
  clamp fc 20 (N.div (N.mul (45 / 100) (rate sr)) 2)

/-- `wc = 2 × tan(π × fcc / SR)` (R183). -/
def ladderWc (N : Numerics X) (sr : SampleRate) (fc : X) : X :=
  N.mul 2 (N.tan (N.div (N.timesPi (ladderCutoff N sr fc)) (rate sr)))

/-- `g = wc / (1 + wc)` (R183). -/
def ladderG (N : Numerics X) (sr : SampleRate) (fc : X) : X :=
  N.div (ladderWc N sr fc) (N.add 1 (ladderWc N sr fc))

/-- `k = 4 × RESONANCE` (R183). -/
def ladderK (N : Numerics X) (P : Params X) : X := N.mul 4 P.resonance

/-- One saturating one-pole stage (R184). -/
def ladderStage (N : Numerics X) (g input s : X) : X := softClip N (N.add s (N.mul g (N.sub input s)))

/-- `ladder.process(x, fc)`: four stages, each fed the stage just written; the feedback takes the previous
sample's last stage (R184). -/
def ladderProcess (N : Numerics X) (sr : SampleRate) (P : Params X) (x fc : X) (s : Filter X) : X × Filter X :=
  let g := ladderG N sr fc
  let u := N.sub (driven N P x) (N.mul (ladderK N P) s.s3)
  let s0 := ladderStage N g u s.s0
  let s1 := ladderStage N g s0 s.s1
  let s2 := ladderStage N g s1 s.s2
  let s3 := ladderStage N g s2 s.s3
  (s3, { s with s0 := s0, s1 := s1, s2 := s2, s3 := s3 })

/-- `flt.process(x, fc)`: the core FILTER_TYPE selects; the other core's state is untouched (R175). -/
def Filter.process (N : Numerics X) (sr : SampleRate) (P : Params X) (x fc : X) (s : Filter X) : X × Filter X :=
  match P.filterType with
  | .svf => svfProcess N sr P x fc s
  | .ladder => ladderProcess N sr P x fc s

end Sys2Proof.Machine
end

