-- ==== Sys2Proof/Machine/Secondary.lean ====
section
/-! DEFINITION. The secondary digital engine (spec/41_secondary_engine.md R130 to R134). -/

namespace Sys2Proof.Machine

variable {X : Type} [Field X] [LinearOrder X] [FloorRing X]

/-- `sec.setFrequency(f)` (R132). -/
def Sec.setFrequency (N : Numerics X) (sr : SampleRate) (f : X) (e : Sec X) : Sec X :=
  { e with inc := N.div f (rate sr) }

/-- `modIndex = 8 × P.SEC_INDEX` (R131). -/
def modIndex (N : Numerics X) (P : Params X) : X := N.mul 8 P.secIndex

/-- `ratio = 1 + 7 × P.SEC_RATIO` (R131). -/
def modRatio (N : Numerics X) (P : Params X) : X := N.add 1 (N.mul 7 P.secRatio)

/-- `2π × t + modIndex × sin(2π × ratio × t)`: the carrier's phase in radians (R133). -/
def pmPhase (N : Numerics X) (P : Params X) (t : X) : X :=
  N.add (radians N t) (N.mul (modIndex N P) (N.sin (N.mul (radians N (modRatio N P)) t)))

/-- The sample of one call at phase `t`, with `n` the draw of this call (R133). -/
def secSample (N : Numerics X) (P : Params X) (t n : X) : X :=
  match P.secMode with
  | .pm => N.sin (pmPhase N P t)
  | .morph => crossfade N P.secShape (sineWave N t) (ramp N t)
  | .noise => n

/-- `sec.process()`: one draw per call in every mode (R133). -/
def Sec.process (N : Numerics X) (P : Params X) (e : Sec X) : X × Sec X :=
  let n := draw N e.g
  (secSample N P e.phase n.1, { e with phase := wrap1 N (N.add e.phase e.inc), g := n.2 })

end Sys2Proof.Machine
end

