-- ==== Sys2Proof/Machine/Voice.lean ====
section
/-! DEFINITION. The voice (spec/45_voice.md R200 to R206). -/

namespace Sys2Proof.Machine

variable {X : Type} [Field X] [LinearOrder X] [FloorRing X]

/-- A note's base frequency `440 × 2^((note − 69)/12)` (R202); the division is of numbers (R14). -/
def noteFrequency (N : Numerics X) (note : Nat) : X := N.mul 440 (N.exp2 (N.div ((((note : Int) - 69 : Int)) : X) 12))

/-- `V[i].noteOn(note, vel)`: phases, generators and envelope levels are kept (R202). -/
def Voice.noteOn (N : Numerics X) (sr : SampleRate) (note : Nat) (vel : X) (v : Voice X) : Voice X :=
  let f := noteFrequency N note
  { active := true
    note := note
    vel := vel
    osc1 := v.osc1.setFrequency N sr f
    osc2 := v.osc2.setFrequency N sr (N.mul f detune)
    sec := v.sec.setFrequency N sr f
    flt := v.flt.reset
    aenv := v.aenv.noteOn
    fenv := v.fenv.noteOn }

/-- `V[i].noteOff()`: both envelopes, nothing else (R203). -/
def Voice.noteOff (v : Voice X) : Voice X := { v with aenv := v.aenv.noteOff, fenv := v.fenv.noteOff }

/-- `V[i].kill()` (R204). -/
def Voice.kill (v : Voice X) : Voice X := { v with active := false, aenv := v.aenv.kill, fenv := v.fenv.kill }

/-- The filter's input: the two oscillators crossfaded, plus the secondary engine's share (R205). -/
def voiceMix (N : Numerics X) (P : Params X) (o1 o2 e : X) : X :=
  N.add (crossfade N P.oscMix o1 o2) (N.mul P.secLevel e)

/-- The modulated cutoff, limited to [20, 20000] Hz (R205). -/
def voiceCutoff (N : Numerics X) (lfoToHz : X) (P : Params X) (e m : X) : X :=
  clamp (N.add (N.mul P.cutoff (N.exp2 (N.mul (N.mul e P.envDepth) 4))) (N.mul m lfoToHz)) 20 20000

/-- `V[i].process(m)`, in the order of R205. -/
def Voice.process (N : Numerics X) (cfg : Cfg X) (P : Params X) (m : X) (v : Voice X) : X × Voice X :=
  let a := v.aenv.process N cfg.sr (ampAdsr P)
  let e := v.fenv.process N cfg.sr (fltAdsr P)
  let o1 := v.osc1.process N P
  let o2 := v.osc2.process N P
  let s := v.sec.process N P
  let x := voiceMix N P o1.1 o2.1 s.1
  let fc := voiceCutoff N cfg.lfoToHz P e.out m
  let y := v.flt.process N cfg.sr P x fc
  (N.mul (N.mul y.1 a.out) v.vel,
   { v with aenv := a, fenv := e, osc1 := o1.2, osc2 := o2.2, sec := s.2, flt := y.2 })

end Sys2Proof.Machine
end

