-- ==== Sys2Proof/Machine/VoiceManager.lean ====
section
/-! DEFINITION. The voice manager's commands NOTE_ON, NOTE_OFF, ALL_NOTES_OFF, LOAD_PRESET and TICK
(spec/46_voice_manager.md R215 to R224). -/

namespace Sys2Proof.Machine

variable {X : Type} [Field X] [LinearOrder X] [FloorRing X]

/-! ## Allocation (R216, R217) -/

/-- The least index of a voice that is not active, if there is one (R216). -/
def freeSlot : List (Voice X) → Option Nat
  | [] => none
  | v :: vs => if voiceActive v then (freeSlot vs).map (· + 1) else some 0

/-- The list with `f` applied to element `i`; unchanged where there is no element `i`. -/
def updateVoice (f : Voice X → Voice X) : Nat → List (Voice X) → List (Voice X)
  | _, [] => []
  | 0, v :: vs => f v :: vs
  | i + 1, v :: vs => v :: updateVoice f i vs

/-- The pool after a note-on: the first free slot takes the note; with none free slot 0 is killed and takes it
(R217). -/
def allocate (N : Numerics X) (sr : SampleRate) (note : Nat) (vel : X) (vs : List (Voice X)) : List (Voice X) :=
  match freeSlot vs with
  | some i => updateVoice (Voice.noteOn N sr note vel) i vs
  | none => updateVoice (fun v => v.kill.noteOn N sr note vel) 0 vs

/-- `NOTE_ON note, velocity` (R217). -/
def cmdNoteOn (note : Nat) (velocity : BitVec 32) : Effect X := fun N s =>
  { s with voices := allocate N s.cfg.sr note (clamp (operandQ velocity) 0 1) s.voices }

/-! ## Release (R218, R219) -/

/-- `NOTE_OFF note`: every active voice that holds the note (R218). -/
def cmdNoteOff (note : Nat) : Effect X := fun _ s =>
  { s with voices := s.voices.map fun v => if voiceActive v && v.note = note then v.noteOff else v }

/-- `ALL_NOTES_OFF`: every active voice (R219). -/
def cmdAllNotesOff : Effect X := fun _ s =>
  { s with voices := s.voices.map fun v => if voiceActive v then v.noteOff else v }

/-! ## Presets (R220) -/

/-- The 18 register writes of a preset, in the order of R220. -/
def Params.applyPreset (N : Numerics X) (sr : SampleRate) (r : Preset X) (P : Params X) : Params X :=
  let P := Params.setMixSine r.mixSine P
  let P := Params.setMixTri r.mixTri P
  let P := Params.setMixSaw r.mixSaw P
  let P := Params.setMixSquare r.mixSquare P
  let P := Params.setMixNoise r.mixNoise P
  let P := Params.setCutoff N sr r.cutoff P
  let P := Params.setResonance r.resonance P
  let P := Params.setDrive r.drive P
  let P := Params.setAmpAttack r.ampAttack P
  let P := Params.setAmpDecay r.ampDecay P
  let P := Params.setAmpSustain r.ampSustain P
  let P := Params.setAmpRelease r.ampRelease P
  let P := Params.setFltAttack r.fltAttack P
  let P := Params.setFltDecay r.fltDecay P
  let P := Params.setFltSustain r.fltSustain P
  let P := Params.setFltRelease r.fltRelease P
  let P := Params.setEnvDepth r.envDepth P
  Params.setMasterVolume r.masterVolume P

/-- `LOAD_PRESET index`: an index at or beyond NPRESETS does nothing (R220). -/
def cmdLoadPreset (index : Nat) : Effect X := fun N s =>
  match s.cfg.presets[index]? with
  | none => s
  | some r => { s with params := Params.applyPreset N s.cfg.sr r s.params, presetIndex := some index }

/-! ## The tick (R221) -/

/-- The voices after a tick with modulation `m`, and `acc` plus the samples of the active ones, in ascending
order; a voice that is not active is not processed (R206, R221). -/
def sumVoices (N : Numerics X) (cfg : Cfg X) (P : Params X) (m : X) : X → List (Voice X) → X × List (Voice X)
  | acc, [] => (acc, [])
  | acc, v :: vs =>
    if voiceActive v then
      let r := v.process N cfg P m
      let rest := sumVoices N cfg P m (N.add acc r.1) vs
      (rest.1, r.2 :: rest.2)
    else
      let rest := sumVoices N cfg P m acc vs
      (rest.1, v :: rest.2)

/-- The mono sum of a tick, with the LFO and the voices after it (R221). -/
def monoTick (N : Numerics X) (s : StateOf X) : X × Lfo X × List (Voice X) :=
  let l := s.lfo.process N s.cfg.sr s.params
  let m := N.mul l.1 s.params.lfoDepth
  let r := sumVoices N s.cfg s.params m 0 s.voices
  (N.mul (N.mul r.1 s.params.masterVolume) (1 / 2), l.2, r.2)

/-- The effects chain on a frame: chorus, delay, reverb (R221, R240). -/
def effectsTick (N : Numerics X) (s : StateOf X) (x : Frame X) : Frame X × Chorus X × Delay X × Reverb X :=
  let c := s.chorus.process N s.cfg.sr s.params x
  let d := s.delay.process N s.cfg.sr s.params c.1
  let v := s.reverb.process N s.params d.1
  (v.1, c.2, d.2, v.2)

/-- One tick: the frame it outputs and the state after it, before the output (R221). -/
def tick (N : Numerics X) (s : StateOf X) : Frame X × StateOf X :=
  let mono := monoTick N s
  let fx := effectsTick N s ⟨mono.1, mono.1⟩
  (fx.1, { s with
    lfo := mono.2.1
    voices := mono.2.2
    chorus := fx.2.1
    delay := fx.2.2.1
    reverb := fx.2.2.2 })

/-- `TICK` (R221). -/
def cmdTick : Effect X := fun N s =>
  let r := tick N s
  r.2.output r.1

/-! ## The commands, as the machine runs them -/

/-- `NOTE_ON`. -/
def execNoteOn (note : Nat) (velocity : BitVec 32) (s : State) : Host.Outcome State Fault Refusal :=
  s.run (cmdNoteOn note velocity)

/-- `NOTE_OFF`. -/
def execNoteOff (note : Nat) (s : State) : Host.Outcome State Fault Refusal := s.run (cmdNoteOff note)

/-- `ALL_NOTES_OFF`. -/
def execAllNotesOff (s : State) : Host.Outcome State Fault Refusal := s.run cmdAllNotesOff

/-- `LOAD_PRESET`. -/
def execLoadPreset (index : Nat) (s : State) : Host.Outcome State Fault Refusal := s.run (cmdLoadPreset index)

/-- `TICK`. -/
def execTick (s : State) : Host.Outcome State Fault Refusal := s.run cmdTick

end Sys2Proof.Machine
end

