-- ==== Sys2Proof/Machine/Dispatch.lean ====
section
/-! DEFINITION. One arm per command: the meaning it calls. No arm is refused. -/

namespace Sys2Proof.Machine

def exec (i : Instr) (s : State) : Host.Outcome State Fault Refusal :=
  match i with
  | .nop => Sys2Proof.Machine.execNop s
  | .tick => Sys2Proof.Machine.execTick s
  | .noteOn note velocity => Sys2Proof.Machine.execNoteOn note velocity s
  | .noteOff note => Sys2Proof.Machine.execNoteOff note s
  | .allNotesOff => Sys2Proof.Machine.execAllNotesOff s
  | .loadPreset index => Sys2Proof.Machine.execLoadPreset index s
  | .setpMixSine val => Sys2Proof.Machine.execSetpMixSine val s
  | .setpMixTri val => Sys2Proof.Machine.execSetpMixTri val s
  | .setpMixSaw val => Sys2Proof.Machine.execSetpMixSaw val s
  | .setpMixSquare val => Sys2Proof.Machine.execSetpMixSquare val s
  | .setpMixNoise val => Sys2Proof.Machine.execSetpMixNoise val s
  | .setpOscMix val => Sys2Proof.Machine.execSetpOscMix val s
  | .setpCutoff val => Sys2Proof.Machine.execSetpCutoff val s
  | .setpResonance val => Sys2Proof.Machine.execSetpResonance val s
  | .setpDrive val => Sys2Proof.Machine.execSetpDrive val s
  | .setpFilterMode val => Sys2Proof.Machine.execSetpFilterMode val s
  | .setpFilterType val => Sys2Proof.Machine.execSetpFilterType val s
  | .setpEnvDepth val => Sys2Proof.Machine.execSetpEnvDepth val s
  | .setpAmpAttack val => Sys2Proof.Machine.execSetpAmpAttack val s
  | .setpAmpDecay val => Sys2Proof.Machine.execSetpAmpDecay val s
  | .setpAmpSustain val => Sys2Proof.Machine.execSetpAmpSustain val s
  | .setpAmpRelease val => Sys2Proof.Machine.execSetpAmpRelease val s
  | .setpFltAttack val => Sys2Proof.Machine.execSetpFltAttack val s
  | .setpFltDecay val => Sys2Proof.Machine.execSetpFltDecay val s
  | .setpFltSustain val => Sys2Proof.Machine.execSetpFltSustain val s
  | .setpFltRelease val => Sys2Proof.Machine.execSetpFltRelease val s
  | .setpSecMode val => Sys2Proof.Machine.execSetpSecMode val s
  | .setpSecIndex val => Sys2Proof.Machine.execSetpSecIndex val s
  | .setpSecRatio val => Sys2Proof.Machine.execSetpSecRatio val s
  | .setpSecShape val => Sys2Proof.Machine.execSetpSecShape val s
  | .setpSecLevel val => Sys2Proof.Machine.execSetpSecLevel val s
  | .setpLfoRate val => Sys2Proof.Machine.execSetpLfoRate val s
  | .setpLfoRateNorm val => Sys2Proof.Machine.execSetpLfoRateNorm val s
  | .setpLfoShape val => Sys2Proof.Machine.execSetpLfoShape val s
  | .setpLfoDepth val => Sys2Proof.Machine.execSetpLfoDepth val s
  | .setpMasterVolume val => Sys2Proof.Machine.execSetpMasterVolume val s
  | .setpChorusRate val => Sys2Proof.Machine.execSetpChorusRate val s
  | .setpChorusDepth val => Sys2Proof.Machine.execSetpChorusDepth val s
  | .setpChorusMix val => Sys2Proof.Machine.execSetpChorusMix val s
  | .setpDelayTime val => Sys2Proof.Machine.execSetpDelayTime val s
  | .setpDelayFeedback val => Sys2Proof.Machine.execSetpDelayFeedback val s
  | .setpDelayMix val => Sys2Proof.Machine.execSetpDelayMix val s
  | .setpReverbDecay val => Sys2Proof.Machine.execSetpReverbDecay val s
  | .setpReverbMix val => Sys2Proof.Machine.execSetpReverbMix val s
  | .lfoSync => Sys2Proof.Machine.execLfoSync s
  | .fxClear mask => Sys2Proof.Machine.execFxClear mask s

end Sys2Proof.Machine
end

