-- ==== Sys2Proof/Machine/Step.lean ====
section
/-! DEFINITION. One step of the block: it consumes the next event of the host's stream (spec/20_memory.md R70,
60_exceptions.md R320). -/

namespace Sys2Proof.Machine

/-- One step. A command word is consumed and its command applied atomically and completely (R70); a reserved
word is consumed and changes nothing (R99); an asserted reset resets (R340); with nothing sent the state is held
(R334). -/
def step (s : State) : Host.Outcome State Fault Refusal :=
  match s.stream with
  | [] => .next s
  | .reset cfg :: rest => .next { StateOf.assertReset { s.toStateOf with stream := rest } cfg with }
  | .command w :: rest =>
    match decode w with
    | .ok i => exec i { s with stream := rest }
    | .error _ => .next { s with stream := rest }

/-- `s` with one command word at the head of the host's stream, where `step` takes its next command. The bits
above `nbits` are zero. -/
def State.withFetchWord (s : State) (nbits w : Nat) : State :=
  { s with stream := .command (BitVec.ofNat 64 (w % 2 ^ nbits)) :: s.stream }

end Sys2Proof.Machine
end

