-- ==== Sys2Proof/Machine/Reference.lean ====
section
/-! DEFINITION. The machine over any exact numbers `X` and any number formats on them, and the REFERENCE INSTANCE of
spec/00_scope.md R9 as a machine: its state holds reals. The machine of Machine/Step.lean is this one at the
rationals and the formats of `Config.num` (Laws/Reference.lean proves it); it is the one the host runs, because a
real is no data: it can be neither compared nor written out (log entry 1). -/

namespace Sys2Proof.Machine

section

variable {X : Type} [Field X] [LinearOrder X] [FloorRing X]

/-- What each command does. -/
def command (i : Instr) : Effect X :=
  match i with
  | .nop => cmdNop
  | .tick => cmdTick
  | .noteOn note velocity => cmdNoteOn note velocity
  | .noteOff note => cmdNoteOff note
  | .allNotesOff => cmdAllNotesOff
  | .loadPreset index => cmdLoadPreset index
  | .setpMixSine val => cmdSetpMixSine val
  | .setpMixTri val => cmdSetpMixTri val
  | .setpMixSaw val => cmdSetpMixSaw val
  | .setpMixSquare val => cmdSetpMixSquare val
  | .setpMixNoise val => cmdSetpMixNoise val
  | .setpOscMix val => cmdSetpOscMix val
  | .setpCutoff val => cmdSetpCutoff val
  | .setpResonance val => cmdSetpResonance val
  | .setpDrive val => cmdSetpDrive val
  | .setpFilterMode val => cmdSetpFilterMode val
  | .setpFilterType val => cmdSetpFilterType val
  | .setpEnvDepth val => cmdSetpEnvDepth val
  | .setpAmpAttack val => cmdSetpAmpAttack val
  | .setpAmpDecay val => cmdSetpAmpDecay val
  | .setpAmpSustain val => cmdSetpAmpSustain val
  | .setpAmpRelease val => cmdSetpAmpRelease val
  | .setpFltAttack val => cmdSetpFltAttack val
  | .setpFltDecay val => cmdSetpFltDecay val
  | .setpFltSustain val => cmdSetpFltSustain val
  | .setpFltRelease val => cmdSetpFltRelease val
  | .setpSecMode val => cmdSetpSecMode val
  | .setpSecIndex val => cmdSetpSecIndex val
  | .setpSecRatio val => cmdSetpSecRatio val
  | .setpSecShape val => cmdSetpSecShape val
  | .setpSecLevel val => cmdSetpSecLevel val
  | .setpLfoRate val => cmdSetpLfoRate val
  | .setpLfoRateNorm val => cmdSetpLfoRateNorm val
  | .setpLfoShape val => cmdSetpLfoShape val
  | .setpLfoDepth val => cmdSetpLfoDepth val
  | .setpMasterVolume val => cmdSetpMasterVolume val
  | .setpChorusRate val => cmdSetpChorusRate val
  | .setpChorusDepth val => cmdSetpChorusDepth val
  | .setpChorusMix val => cmdSetpChorusMix val
  | .setpDelayTime val => cmdSetpDelayTime val
  | .setpDelayFeedback val => cmdSetpDelayFeedback val
  | .setpDelayMix val => cmdSetpDelayMix val
  | .setpReverbDecay val => cmdSetpReverbDecay val
  | .setpReverbMix val => cmdSetpReverbMix val
  | .lfoSync => cmdLfoSync
  | .fxClear mask => cmdFxClear mask

/-- One step under the number formats `num`: the next event of the stream, as in `step` (R70, R99, R334, R340). -/
def StateOf.step (num : NumFormat → Numerics X) (s : StateOf X) : StateOf X :=
  match s.stream with
  | [] => s
  | .reset cfg :: rest => StateOf.assertReset { s with stream := rest } cfg
  | .command w :: rest =>
    match decode w with
    | .ok i => command i (num s.cfg.num) { s with stream := rest }
    | .error _ => { s with stream := rest }

end

/-- The reference instance of R9 as a machine, with any generator: `T = ℝ`, `rnd = id`, the mathematical functions,
the circle constant, whatever format a configuration names. -/
noncomputable def referenceCore (next : Nat → Nat × ℝ) : Host.Core where
  State := StateOf ℝ
  Fault := Fault
  Refusal := Refusal
  step := fun s => .next (s.step fun _ => Numerics.reference next)
  reset := StateOf.resetWith Cfg.reference

end Sys2Proof.Machine
end

