-- ==== Sys2Proof/Safety.lean ====
section
/-! DEFINITION. What counts as a legal state and a safe stream, in the terms claims use: the intervals of
spec/10_state.md R23 to R34, the ring positions and the canonical form of 20_memory.md R61 and R74, the
configuration of 00_scope.md R7. -/

namespace Sys2Proof.Machine

section

variable {X : Type} [Field X] [LinearOrder X] [FloorRing X]

/-- `lo ≤ x ≤ hi`. -/
abbrev within (lo hi x : X) : Prop := lo ≤ x ∧ x ≤ hi

/-- A phase: in [0, 1) (R8, R27). -/
abbrev isPhase (x : X) : Prop := 0 ≤ x ∧ x < 1

/-- The 31 numeric registers whose interval does not depend on another register (R23). -/
structure PlainLegal (P : Params X) : Prop where
  mixSine : within 0 1 P.mixSine
  mixTri : within 0 1 P.mixTri
  mixSaw : within 0 1 P.mixSaw
  mixSquare : within 0 1 P.mixSquare
  mixNoise : within 0 1 P.mixNoise
  oscMix : within 0 1 P.oscMix
  drive : within 0 1 P.drive
  envDepth : within 0 1 P.envDepth
  ampAttack : within (1 / 1000) 10 P.ampAttack
  ampDecay : within (1 / 1000) 10 P.ampDecay
  ampSustain : within 0 1 P.ampSustain
  ampRelease : within (1 / 1000) 10 P.ampRelease
  fltAttack : within (1 / 1000) 10 P.fltAttack
  fltDecay : within (1 / 1000) 10 P.fltDecay
  fltSustain : within 0 1 P.fltSustain
  fltRelease : within (1 / 1000) 10 P.fltRelease
  secIndex : within 0 1 P.secIndex
  secRatio : within 0 1 P.secRatio
  secShape : within 0 1 P.secShape
  secLevel : within 0 1 P.secLevel
  lfoRate : within (1 / 100) 100 P.lfoRate
  lfoDepth : within 0 1 P.lfoDepth
  masterVolume : within 0 1 P.masterVolume
  chorusRate : within (1 / 100) 100 P.chorusRate
  chorusDepth : within 0 1 P.chorusDepth
  chorusMix : within 0 1 P.chorusMix
  delayTime : within 0 delayMaxS P.delayTime
  delayFeedback : within 0 (95 / 100) P.delayFeedback
  delayMix : within 0 1 P.delayMix
  reverbDecay : within 0 (99 / 100) P.reverbDecay
  reverbMix : within 0 1 P.reverbMix

/-- CUTOFF and RESONANCE after any history of writes and FILTER_TYPE switches: inside the wider of the two
types' intervals (R23, R276, C5). -/
abbrev filterRegsLegal (N : Numerics X) (sr : SampleRate) (P : Params X) : Prop :=
  within 20 (N.mul (45 / 100) (rate sr)) P.cutoff ∧ within 0 1 P.resonance

/-- Every register inside its legal interval (R23). -/
abbrev paramsLegal (N : Numerics X) (sr : SampleRate) (P : Params X) : Prop := PlainLegal P ∧ filterRegsLegal N sr P

/-- A legal configuration: at least one voice, at most 256 presets, reset values inside their intervals for
their own filter type (R7, R31). -/
abbrev cfgLegal (N : Numerics X) (c : Cfg X) : Prop :=
  1 ≤ c.nv ∧ c.npresets ≤ 256 ∧ PlainLegal c.resetParams
    ∧ within 20 (cutoffMax N c.sr c.resetParams) c.resetParams.cutoff
    ∧ within 0 (resonanceMax c.resetParams) c.resetParams.resonance

/-- An envelope: level in [0, 1], and 0 in IDLE (R29, R154). A level in DECAY is a number of the format, which
keeps the next one in [0, 1] when every operator rounds. -/
abbrev envLegal (N : Numerics X) (e : Env X) : Prop :=
  within 0 1 e.out ∧ (e.stage = .idle → e.out = 0) ∧ (e.stage = .decay → N.inT e.out)

/-- A named property of a number format (R9, U1): its soft clip stays in [−1, 1] (R179). Every exact format has
it; a rounding one need not. -/
def ClipBounded (N : Numerics X) : Prop := ∀ x, -1 ≤ softClip N x ∧ softClip N x ≤ 1

/-- A filter: the ladder stages in [−1, 1] where the format's soft clip keeps to it (R184). Nothing bounds the
state-variable core (R182). -/
abbrev filterLegal (N : Numerics X) (f : Filter X) : Prop :=
  ClipBounded N → within (-1) 1 f.s0 ∧ within (-1) 1 f.s1 ∧ within (-1) 1 f.s2 ∧ within (-1) 1 f.s3

/-- A voice (R26 to R30); a voice whose flag is clear has both envelopes IDLE (R204). -/
abbrev voiceLegal (N : Numerics X) (v : Voice X) : Prop :=
  v.note < 128 ∧ within 0 1 v.vel
    ∧ (isPhase v.osc1.phase ∧ 0 ≤ v.osc1.inc) ∧ (isPhase v.osc2.phase ∧ 0 ≤ v.osc2.inc)
    ∧ (isPhase v.sec.phase ∧ 0 ≤ v.sec.inc)
    ∧ filterLegal N v.flt ∧ envLegal N v.aenv ∧ envLegal N v.fenv
    ∧ (v.active = false → v.aenv.stage = .idle ∧ v.fenv.stage = .idle)

/-- The LFO (R25). -/
abbrev lfoLegal (l : Lfo X) : Prop := isPhase l.phase ∧ -1 ≤ l.held ∧ l.held < 1

/-- A ring of `n` elements in its canonical form. -/
abbrev ringLegal (n : Nat) (m : Memory X) : Prop := m.wf = true ∧ m.fits n = true

/-- The chorus (R34, R61). -/
abbrev chorusLegal (c : Chorus X) : Prop :=
  ringLegal chorusLen c.bufL ∧ ringLegal chorusLen c.bufR ∧ c.w < chorusLen ∧ isPhase c.phL ∧ isPhase c.phR

/-- The delay (R34, R61). -/
abbrev delayLegal (sr : SampleRate) (d : Delay X) : Prop :=
  ringLegal (delayLen sr) d.bufL ∧ ringLegal (delayLen sr) d.bufR ∧ d.w < delayLen sr

/-- One reverb ring with its position (R34, R61). -/
abbrev lineLegal (n : Nat) (l : Line X) : Prop := ringLegal n l.buf ∧ l.pos < n

/-- The reverb (R34, R61). -/
abbrev reverbLegal (v : Reverb X) : Prop :=
  lineLegal combLen0 v.comb0 ∧ lineLegal combLen1 v.comb1 ∧ lineLegal combLen2 v.comb2
    ∧ lineLegal combLen3 v.comb3 ∧ lineLegal apLen0 v.ap0 ∧ lineLegal apLen1 v.ap1

/-- A legal index of the preset table, or NONE (R33). -/
abbrev presetIndexLegal (c : Cfg X) (o : Option Nat) : Prop := ∀ i ∈ o, i < c.npresets

/-- What the host may put into the stream: any word; a reset with a legal configuration (R344, R340). -/
def eventLegal (num : NumFormat → Numerics X) (e : HostEvent X) : Prop :=
  ∀ cfg, e = .reset cfg → cfgLegal (num cfg.num) cfg

/-- A legal state under the number formats `num`: every range the spec states for a piece of state holds (R7, R21,
R23 to R34, R61). -/
structure StateOf.Legal (num : NumFormat → Numerics X) (s : StateOf X) : Prop where
  cfg : cfgLegal (num s.cfg.num) s.cfg
  pool : s.voices.length = s.cfg.nv
  params : paramsLegal (num s.cfg.num) s.cfg.sr s.params
  lfo : lfoLegal s.lfo
  voices : ∀ v ∈ s.voices, voiceLegal (num s.cfg.num) v
  chorus : chorusLegal s.chorus
  delay : delayLegal s.cfg.sr s.delay
  reverb : reverbLegal s.reverb
  presetIndex : presetIndexLegal s.cfg s.presetIndex
  stream : ∀ e ∈ s.stream, eventLegal num e

/-- A stream no claim about which rests on a reserved encoding (U8). -/
def streamDefined (events : List (HostEvent X)) : Bool :=
  events.all fun e => match e with
    | .command w => match decode w with
      | .ok _ => true
      | .error _ => false
    | .reset _ => true

end

/-- A legal state of the machine. -/
abbrev State.Legal (s : State) : Prop := StateOf.Legal Config.num s.toStateOf

/-- A safe run of `k` steps: it ends in a next state. Every run is safe, since the block has no fault (R320). -/
def safeRun (k : Nat) (s : State) : Prop := ∃ t, Host.Core.run
  { State := State, Fault := Fault, Refusal := Refusal, step := step, reset := State.reset } k s = .next t

end Sys2Proof.Machine
end

