-- ==== Sys2Proof/Certificates/Slice0/Obligations.lean ====
section
/-! DEFINITION. The statements for the provers. Each docstring names the rules of the spec it formalises; where a
clause is the model's own choice it says so and names the log entry. A statement about a unit holds over every
ordered field `X` with a floor (the machine's rationals, the reals of R9's reference instance) and for every number
format `N`: its equations are in the format's own operators, which round each result in the order the rule writes
them; a closed form says `N.rnd = id`, and a range says which laws of the format it uses (`Numerics.Lawful`,
`Numerics.Exact`: log entry 2). -/

section

open Sys2Proof Sys2Proof.Machine

/-! ## Encoding -/

/-- R90 to R97, R105: no bit of a well-formed command is dropped between the encoder and the decoder. -/
def Obligations.DecodeEncodeRoundTrip : Prop :=
  ∀ i : Instr, i.wellFormed = true → decode (encode i) = .ok i

/-- R96, R97: a word is a row's command exactly when it meets the row's mask and match. -/
def Obligations.OpcodeMapRows : Prop :=
  ∀ (w : Word) (i : Instr),
    w &&& tableMask i = tableMatch i ↔ ∃ j, decode w = .ok j ∧ j.mnemonic = i.mnemonic

/-- R98 (with the formats of R91): two words with the same opcode that agree on the fields the opcode reads
decode alike, whatever stands in the other bits. -/
def Obligations.IgnoredBitsDecodeAlike : Prop :=
  ∀ w u : Word, w.extractLsb' 56 8 = u.extractLsb' 56 8 →
    let op := (w.extractLsb' 56 8).toNat
    (op ∈ [0x00, 0x01, 0x04, 0x07] → decode w = decode u)
    ∧ (op = 0x02 → w.extractLsb' 48 7 = u.extractLsb' 48 7 → w.extractLsb' 0 32 = u.extractLsb' 0 32 →
        decode w = decode u)
    ∧ (op = 0x03 → w.extractLsb' 48 7 = u.extractLsb' 48 7 → decode w = decode u)
    ∧ (op = 0x05 → w.extractLsb' 48 8 = u.extractLsb' 48 8 → decode w = decode u)
    ∧ (op = 0x06 → w.extractLsb' 48 8 = u.extractLsb' 48 8 → w.extractLsb' 0 32 = u.extractLsb' 0 32 →
        decode w = decode u)
    ∧ (op = 0x08 → w.extractLsb' 48 3 = u.extractLsb' 48 3 → decode w = decode u)

/-- R99: a reserved word is consumed and changes no state. -/
def Obligations.ReservedWordsChangeNothing : Prop :=
  ∀ (s : State) (w : Word) (rest : List (HostEvent Scalar)), s.stream = .command w :: rest →
    (0x09 ≤ (w.extractLsb' 56 8).toNat ∨ ((w.extractLsb' 56 8).toNat = 0x06 ∧ (w.extractLsb' 48 8).toNat ∉
      [0x00, 0x01, 0x02, 0x03, 0x04, 0x05, 0x08, 0x09, 0x0A, 0x0B, 0x0C, 0x0D, 0x10, 0x11, 0x12, 0x13, 0x14,
       0x15, 0x16, 0x17, 0x18, 0x19, 0x1A, 0x1B, 0x1C, 0x20, 0x21, 0x22, 0x23, 0x28, 0x30, 0x31, 0x32, 0x38,
       0x39, 0x3A, 0x40, 0x41])) →
    step s = .next { s with stream := rest }

/-- R90 to R105: words written out from the encoding. -/
def Obligations.WrittenOutWordsDecode : Prop :=
  decode 0x0000000000000000 = .ok .nop
  ∧ decode 0x0100000000000000 = .ok .tick
  ∧ decode 0x0245000000010000 = .ok (.noteOn 69 0x00010000)
  ∧ decode 0x033C000000000000 = .ok (.noteOff 60)
  ∧ decode 0x0400000000000000 = .ok .allNotesOff
  ∧ decode 0x0503000000000000 = .ok (.loadPreset 3)
  ∧ decode 0x0608000003E80000 = .ok (.setpCutoff 0x03E80000)
  ∧ decode 0x0622000000000005 = .ok (.setpLfoShape 5)
  ∧ decode 0x0700000000000000 = .ok .lfoSync
  ∧ decode 0x0804000000000000 = .ok (.fxClear 0b100)

/-- R93: the Q operand, and the assembler's encoding of a number as one. -/
def Obligations.NumericOperand : Prop :=
  (∀ val : BitVec 32, let v : Scalar := operandQ val
      v = (val.toInt : Scalar) / 65536 ∧ -32768 ≤ v ∧ v ≤ 32768 - 1 / 65536 ∧ encodeQ v = val)
  ∧ (∀ x : Scalar, -32768 ≤ x → x ≤ 32768 - 1 / 65536 →
      |operandQ (encodeQ x) - x| ≤ 1 / 131072
      ∧ (|operandQ (encodeQ x) - x| = 1 / 131072 → 2 ∣ (encodeQ x).toInt))
  ∧ (∀ x : Scalar, 32768 - 1 / 65536 < x → encodeQ x = 0x7FFFFFFF)
  ∧ (∀ x : Scalar, x < -32768 → encodeQ x = 0x80000000)

/-! ## The step -/

/-- R70: when the word at the head of the stream decodes, the step runs that command on the state that has
consumed it; a word placed by `withFetchWord` is that word. -/
def Obligations.StepRunsDecodedInstruction : Prop :=
  (∀ (s : State) (w : Word) (rest : List (HostEvent Scalar)) (i : Instr),
      s.stream = .command w :: rest → decode w = .ok i → step s = exec i { s with stream := rest })
  ∧ (∀ (s : State) (w : Word) (i : Instr), decode w = .ok i →
      step (s.withFetchWord 64 w.toNat) = exec i s)

/-- R334, R340: with nothing sent the state is held; an asserted reset puts the state at its reset values for the
configuration sampled. A step on an empty stream, and that the rest of the stream and the frames already delivered
stay with the host at a reset, are the model's choices (log entries 6 and 8). -/
def Obligations.StepWithoutCommand : Prop :=
  (∀ s : State, s.stream = [] → step s = .next s)
  ∧ ∀ (s : State) (c : Cfg Scalar) (rest : List (HostEvent Scalar)), s.stream = .reset c :: rest →
    step s = .next { State.resetWith c with stream := rest, frames := s.frames }

/-- R31: the value of every piece of state after reset, for every configuration. -/
def Obligations.ResetValues : Prop :=
  ∀ c : Cfg Scalar, let s := State.resetWith c
    s.cfg = c ∧ s.params = c.resetParams ∧ s.presetIndex = none
    ∧ (s.lfo.phase = 0 ∧ s.lfo.held = 0 ∧ s.lfo.g = c.seed 0)
    ∧ s.voices.length = c.nv
    ∧ (∀ i, i < c.nv → ∃ v, s.voices[i]? = some v
        ∧ v.active = false ∧ v.note = 0 ∧ v.vel = 0
        ∧ v.osc1 = ⟨0, 0, c.seed (4 * i + 1)⟩ ∧ v.osc2 = ⟨0, 0, c.seed (4 * i + 2)⟩
        ∧ v.sec = ⟨0, 0, c.seed (4 * i + 3)⟩
        ∧ v.flt = ⟨0, 0, 0, 0, 0, 0, 0, 0⟩ ∧ v.aenv = ⟨.idle, 0⟩ ∧ v.fenv = ⟨.idle, 0⟩)
    ∧ (∀ a, s.chorus.bufL.read a = 0 ∧ s.chorus.bufR.read a = 0 ∧ s.delay.bufL.read a = 0
        ∧ s.delay.bufR.read a = 0 ∧ s.reverb.comb0.buf.read a = 0 ∧ s.reverb.comb1.buf.read a = 0
        ∧ s.reverb.comb2.buf.read a = 0 ∧ s.reverb.comb3.buf.read a = 0 ∧ s.reverb.ap0.buf.read a = 0
        ∧ s.reverb.ap1.buf.read a = 0)
    ∧ (s.chorus.w = 0 ∧ s.delay.w = 0 ∧ s.reverb.comb0.pos = 0 ∧ s.reverb.comb1.pos = 0
        ∧ s.reverb.comb2.pos = 0 ∧ s.reverb.comb3.pos = 0 ∧ s.reverb.ap0.pos = 0 ∧ s.reverb.ap1.pos = 0)
    ∧ s.chorus.phL = 0 ∧ s.chorus.phR = 0

/-- R11, R320: every command and every step answers a next state; a frame appears exactly for `TICK`. -/
def Obligations.EveryCommandCompletes : Prop :=
  (∀ (i : Instr) (s : State), ∃ t, exec i s = .next t
      ∧ (i = .tick → ∃ f, t.frames = s.frames ++ [f]) ∧ (i ≠ .tick → t.frames = s.frames))
  ∧ ∀ s : State, ∃ t, step s = .next t

/-- R100: `NOP` changes nothing. -/
def Obligations.NopChangesNothing : Prop :=
  (∀ s : State, exec .nop s = .next s) ∧ decode 0x0000000000000000 = .ok .nop

/-! ## SETP: one register each, everything else as before -/

/-- R266 to R271. -/
def Obligations.SetpMixWrites : Prop :=
  ∀ (val : BitVec 32) (s : State), let v : Scalar := (val.toInt : Scalar) / 65536
    exec (.setpMixSine val) s = .next { s with params := { s.params with mixSine := clamp v 0 1 } }
    ∧ exec (.setpMixTri val) s = .next { s with params := { s.params with mixTri := clamp v 0 1 } }
    ∧ exec (.setpMixSaw val) s = .next { s with params := { s.params with mixSaw := clamp v 0 1 } }
    ∧ exec (.setpMixSquare val) s = .next { s with params := { s.params with mixSquare := clamp v 0 1 } }
    ∧ exec (.setpMixNoise val) s = .next { s with params := { s.params with mixNoise := clamp v 0 1 } }
    ∧ exec (.setpOscMix val) s = .next { s with params := { s.params with oscMix := clamp v 0 1 } }

/-- R272 to R277, R94: the bounds of CUTOFF and RESONANCE depend on the filter type in force at the write, and
an enumeration operand beyond the last enumerator selects the last one. CUTOFF's upper bound is a product, rounded
by the machine's number format (log entry 21) and exact in the format that does not round. -/
def Obligations.SetpFilterWrites : Prop :=
  ∀ (val : BitVec 32) (s : State), let v : Scalar := (val.toInt : Scalar) / 65536
    let n := val.toNat
    let share : Scalar := if s.params.filterType = .svf then 45 / 100 else 225 / 1000
    let cutoffTop : Scalar := s.num.mul share s.cfg.sr.hz
    let resonanceTop : Scalar := if s.params.filterType = .svf then 99 / 100 else 1
    exec (.setpCutoff val) s = .next { s with params := { s.params with
        cutoff := clamp v 20 cutoffTop } }
    ∧ (s.cfg.num = .exact → cutoffTop = share * s.cfg.sr.hz)
    ∧ exec (.setpResonance val) s = .next { s with params := { s.params with
        resonance := clamp v 0 resonanceTop } }
    ∧ exec (.setpDrive val) s = .next { s with params := { s.params with drive := clamp v 0 1 } }
    ∧ exec (.setpFilterMode val) s = .next { s with params := { s.params with
        filterMode := if n = 0 then .lp else if n = 1 then .hp else if n = 2 then .bp else .notch } }
    ∧ exec (.setpFilterType val) s = .next { s with params := { s.params with
        filterType := if n = 0 then .svf else .ladder } }
    ∧ exec (.setpEnvDepth val) s = .next { s with params := { s.params with envDepth := clamp v 0 1 } }

/-- R278 to R285. -/
def Obligations.SetpEnvelopeWrites : Prop :=
  ∀ (val : BitVec 32) (s : State), let v : Scalar := (val.toInt : Scalar) / 65536
    exec (.setpAmpAttack val) s = .next { s with params := { s.params with
        ampAttack := clamp v (1 / 1000) 10 } }
    ∧ exec (.setpAmpDecay val) s = .next { s with params := { s.params with
        ampDecay := clamp v (1 / 1000) 10 } }
    ∧ exec (.setpAmpSustain val) s = .next { s with params := { s.params with ampSustain := clamp v 0 1 } }
    ∧ exec (.setpAmpRelease val) s = .next { s with params := { s.params with
        ampRelease := clamp v (1 / 1000) 10 } }
    ∧ exec (.setpFltAttack val) s = .next { s with params := { s.params with
        fltAttack := clamp v (1 / 1000) 10 } }
    ∧ exec (.setpFltDecay val) s = .next { s with params := { s.params with
        fltDecay := clamp v (1 / 1000) 10 } }
    ∧ exec (.setpFltSustain val) s = .next { s with params := { s.params with fltSustain := clamp v 0 1 } }
    ∧ exec (.setpFltRelease val) s = .next { s with params := { s.params with
        fltRelease := clamp v (1 / 1000) 10 } }

/-- R286 to R290, R296, R298 to R300. -/
def Obligations.SetpSecondaryLfoMasterWrites : Prop :=
  ∀ (val : BitVec 32) (s : State), let v : Scalar := (val.toInt : Scalar) / 65536
    let n := val.toNat
    exec (.setpSecMode val) s = .next { s with params := { s.params with
        secMode := if n = 0 then .pm else if n = 1 then .morph else .noise } }
    ∧ exec (.setpSecIndex val) s = .next { s with params := { s.params with secIndex := clamp v 0 1 } }
    ∧ exec (.setpSecRatio val) s = .next { s with params := { s.params with secRatio := clamp v 0 1 } }
    ∧ exec (.setpSecShape val) s = .next { s with params := { s.params with secShape := clamp v 0 1 } }
    ∧ exec (.setpSecLevel val) s = .next { s with params := { s.params with secLevel := clamp v 0 1 } }
    ∧ exec (.setpLfoRate val) s = .next { s with params := { s.params with lfoRate := clamp v (1 / 100) 100 } }
    ∧ exec (.setpLfoShape val) s = .next { s with params := { s.params with
        lfoShape := if n = 0 then .sine else if n = 1 then .triangle else if n = 2 then .sawUp
          else if n = 3 then .sawDown else if n = 4 then .square else .sampleHold } }
    ∧ exec (.setpLfoDepth val) s = .next { s with params := { s.params with lfoDepth := clamp v 0 1 } }
    ∧ exec (.setpMasterVolume val) s = .next { s with params := { s.params with
        masterVolume := clamp v 0 1 } }

/-- R297: the write port LFO_RATE_NORM stores `0.1 × exp(p × ln 500)` clamped to [0.01, 100] into LFO_RATE. Where
nothing is rounded the second clamp never binds: 0.1 Hz at `p = 0`, 50 Hz at `p = 1`, and in the reference instance
`0.1 × 500^p`. The laws of `exp` and of ln 500 are those of log entry 2; the machine's ln 500 is within 10^−20 of
ln 500. -/
def Obligations.LfoRateNormMapsExponentially : Prop :=
  (∀ (val : BitVec 32) (s : State), let v : Scalar := (val.toInt : Scalar) / 65536
    let p := clamp v 0 1
    let r := clamp (s.num.mul (1 / 10) (s.num.exp (s.num.mul p s.num.ln500))) (1 / 100) 100
    exec (.setpLfoRateNorm val) s = .next { s with params := { s.params with lfoRate := r } }
    ∧ (s.cfg.num = .exact → r = 1 / 10 * s.num.exp (p * s.num.ln500) ∧ 1 / 10 ≤ r ∧ r ≤ 50
        ∧ (v ≤ 0 → r = 1 / 10) ∧ (1 ≤ v → r = 50)
        ∧ |(s.num.ln500 : ℝ) - Real.log 500| < 1 / 10 ^ 20))
  ∧ ∀ (next : Nat → Nat × ℝ) (val : BitVec 32) (s : StateOf ℝ),
      command (.setpLfoRateNorm val) (Numerics.reference next) s =
        { s with params := { s.params with lfoRate := 1 / 10 * 500 ^ clamp ((val.toInt : ℝ) / 65536) 0 1 } }

/-- R301 to R308. -/
def Obligations.SetpEffectWrites : Prop :=
  ∀ (val : BitVec 32) (s : State), let v : Scalar := (val.toInt : Scalar) / 65536
    exec (.setpChorusRate val) s = .next { s with params := { s.params with
        chorusRate := clamp v (1 / 100) 100 } }
    ∧ exec (.setpChorusDepth val) s = .next { s with params := { s.params with chorusDepth := clamp v 0 1 } }
    ∧ exec (.setpChorusMix val) s = .next { s with params := { s.params with chorusMix := clamp v 0 1 } }
    ∧ exec (.setpDelayTime val) s = .next { s with params := { s.params with delayTime := clamp v 0 2 } }
    ∧ exec (.setpDelayFeedback val) s = .next { s with params := { s.params with
        delayFeedback := clamp v 0 (95 / 100) } }
    ∧ exec (.setpDelayMix val) s = .next { s with params := { s.params with delayMix := clamp v 0 1 } }
    ∧ exec (.setpReverbDecay val) s = .next { s with params := { s.params with
        reverbDecay := clamp v 0 (99 / 100) } }
    ∧ exec (.setpReverbMix val) s = .next { s with params := { s.params with reverbMix := clamp v 0 1 } }

/-- R265: writing a register twice with the same operand is the same as writing it once (a `SETP` word has
opcode 0x06). -/
def Obligations.SetpIsIdempotent : Prop :=
  ∀ (i : Instr) (s t : State), opField (encode i) = 0x06 → exec i s = .next t → exec i t = .next t

/-! ## Notes and presets -/

/-- R202, R204, R216, R217: `NOTE_ON` starts the note in the first voice that is not active; with every voice
active it takes slot 0, whose envelopes then restart from level 0. Every other voice and all else is as before.
The note's frequency is in the machine's number format; the reference instance has the increments of
`440 × 2^((note − 69)/12)` itself. -/
def Obligations.NoteOnAllocates : Prop :=
  (∀ (note : Nat) (velocity : BitVec 32) (s : State), let N := s.num
    let f : Scalar := N.mul 440 (N.exp2 (N.div ((note : Scalar) - 69) 12))
    let sr : Scalar := s.cfg.sr.hz
    let started : Voice Scalar → Voice Scalar := fun v =>
      { active := true
        note := note
        vel := clamp ((velocity.toInt : Scalar) / 65536) 0 1
        osc1 := { v.osc1 with inc := N.div f sr }
        osc2 := { v.osc2 with inc := N.div (N.mul f (1002 / 1000)) sr }
        sec := { v.sec with inc := N.div f sr }
        flt := ⟨0, 0, 0, 0, 0, 0, 0, 0⟩
        aenv := { v.aenv with stage := .attack }
        fenv := { v.fenv with stage := .attack } }
    (∀ (i : Nat) (v : Voice Scalar), s.voices[i]? = some v → voiceActive v = false →
        (∀ j, j < i → ∀ u, s.voices[j]? = some u → voiceActive u = true) →
        exec (.noteOn note velocity) s = .next { s with voices := s.voices.set i (started v) })
    ∧ (∀ (v : Voice Scalar) (rest : List (Voice Scalar)), s.voices = v :: rest →
        (∀ u ∈ s.voices, voiceActive u = true) →
        exec (.noteOn note velocity) s = .next { s with
          voices := { started v with aenv := ⟨.attack, 0⟩, fenv := ⟨.attack, 0⟩ } :: rest }))
  ∧ ∀ (next : Nat → Nat × ℝ) (note : Nat) (velocity : BitVec 32) (s : StateOf ℝ) (i : Nat) (v : Voice ℝ),
      s.voices[i]? = some v → voiceActive v = false →
      (∀ j, j < i → ∀ u, s.voices[j]? = some u → voiceActive u = true) →
      let f : ℝ := 440 * (2 : ℝ) ^ (((note : ℝ) - 69) / 12)
      ∃ u, (command (.noteOn note velocity) (Numerics.reference next) s).voices[i]? = some u
        ∧ u.osc1.inc = f / s.cfg.sr.hz ∧ u.osc2.inc = f * (1002 / 1000) / s.cfg.sr.hz ∧ u.sec.inc = f / s.cfg.sr.hz

/-- R217's worked property: with four free voices, four notes take the four slots in order, and a fifth and a
sixth note take slot 0. -/
def Obligations.FifthNoteStealsSlotZero : Prop :=
  ∀ (s : State) (n1 n2 n3 n4 n5 n6 : Nat) (x1 x2 x3 x4 x5 x6 : BitVec 32),
    s.voices.length = 4 → (∀ v ∈ s.voices, voiceActive v = false) →
    ∃ t1 t2 t3 t4 t5 t6 : State,
      exec (.noteOn n1 x1) s = .next t1 ∧ exec (.noteOn n2 x2) t1 = .next t2
      ∧ exec (.noteOn n3 x3) t2 = .next t3 ∧ exec (.noteOn n4 x4) t3 = .next t4
      ∧ t4.voices.map Voice.note = [n1, n2, n3, n4] ∧ (∀ v ∈ t4.voices, voiceActive v = true)
      ∧ exec (.noteOn n5 x5) t4 = .next t5
      ∧ t5.voices.map Voice.note = [n5, n2, n3, n4] ∧ t5.voices.tail = t4.voices.tail
      ∧ exec (.noteOn n6 x6) t5 = .next t6
      ∧ t6.voices.map Voice.note = [n6, n2, n3, n4] ∧ t6.voices.tail = t4.voices.tail

/-- R218, with R203 and R146: every active voice that holds the note has both envelopes put in RELEASE (an
envelope that is IDLE stays so); nothing else changes. -/
def Obligations.NoteOffReleases : Prop :=
  ∀ (note : Nat) (s : State),
    let off : Env Scalar → Env Scalar := fun e => if e.stage = .idle then e else { e with stage := .release }
    exec (.noteOff note) s = .next { s with voices := s.voices.map fun v =>
      if v.active = true ∧ v.aenv.stage ≠ .idle ∧ v.note = note then
        { v with aenv := off v.aenv, fenv := off v.fenv }
      else v }

/-- R219: `ALL_NOTES_OFF` releases every active voice, and a second one changes nothing. -/
def Obligations.AllNotesOffReleases : Prop :=
  ∀ s : State,
    let off : Env Scalar → Env Scalar := fun e => if e.stage = .idle then e else { e with stage := .release }
    exec .allNotesOff s = .next { s with voices := s.voices.map fun v =>
      if v.active = true ∧ v.aenv.stage ≠ .idle then { v with aenv := off v.aenv, fenv := off v.fenv } else v }
    ∧ ∀ t, exec .allNotesOff s = .next t → exec .allNotesOff t = .next t

/-- R220: `LOAD_PRESET` writes the 18 registers of the record, each clamped as by its `SETP` with the filter type
in force, and PRESET_INDEX; an index at or beyond NPRESETS does nothing. -/
def Obligations.LoadPresetWrites : Prop :=
  ∀ (index : Nat) (s : State),
    (s.cfg.presets.length ≤ index → exec (.loadPreset index) s = .next s)
    ∧ ∀ r : Preset Scalar, s.cfg.presets[index]? = some r →
      let cutoffTop : Scalar :=
        s.num.mul (if s.params.filterType = .svf then 45 / 100 else 225 / 1000) s.cfg.sr.hz
      let resonanceTop : Scalar := if s.params.filterType = .svf then 99 / 100 else 1
      exec (.loadPreset index) s = .next { s with
        presetIndex := some index
        params := { s.params with
          mixSine := clamp r.mixSine 0 1
          mixTri := clamp r.mixTri 0 1
          mixSaw := clamp r.mixSaw 0 1
          mixSquare := clamp r.mixSquare 0 1
          mixNoise := clamp r.mixNoise 0 1
          cutoff := clamp r.cutoff 20 cutoffTop
          resonance := clamp r.resonance 0 resonanceTop
          drive := clamp r.drive 0 1
          ampAttack := clamp r.ampAttack (1 / 1000) 10
          ampDecay := clamp r.ampDecay (1 / 1000) 10
          ampSustain := clamp r.ampSustain 0 1
          ampRelease := clamp r.ampRelease (1 / 1000) 10
          fltAttack := clamp r.fltAttack (1 / 1000) 10
          fltDecay := clamp r.fltDecay (1 / 1000) 10
          fltSustain := clamp r.fltSustain 0 1
          fltRelease := clamp r.fltRelease (1 / 1000) 10
          envDepth := clamp r.envDepth 0 1
          masterVolume := clamp r.masterVolume 0 1 } }

/-! ## TICK -/

/-- R221: one tick: the LFO, the sum over the active voices, the master gain, the three effects, the frame. -/
def Obligations.TickProducesFrame : Prop :=
  ∀ s : State, let N := s.num
    let P := s.params
    let l := s.lfo.process N s.cfg.sr P
    let m := N.mul l.1 P.lfoDepth
    let heard := s.voices.filter voiceActive
    let sum := heard.foldl (fun acc v => N.add acc (v.process N s.cfg P m).1) 0
    let mono := N.mul (N.mul sum P.masterVolume) (1 / 2)
    let c := s.chorus.process N s.cfg.sr P ⟨mono, mono⟩
    let d := s.delay.process N s.cfg.sr P c.1
    let r := s.reverb.process N P d.1
    exec .tick s = .next { s with
      lfo := l.2
      voices := s.voices.map fun v => if voiceActive v then (v.process N s.cfg P m).2 else v
      chorus := c.2
      delay := d.2
      reverb := r.2
      frames := s.frames ++ [r.1] }

/-- R205: the voice's sample and its state after it. -/
def Obligations.VoiceProcessOrder : Prop :=
  ∀ (X : Type) [Field X] [LinearOrder X] [IsStrictOrderedRing X] [FloorRing X]
      (N : Numerics X) (cfg : Cfg X) (P : Params X) (m : X) (v : Voice X),
    let a := v.aenv.process N cfg.sr ⟨P.ampAttack, P.ampDecay, P.ampSustain, P.ampRelease⟩
    let e := v.fenv.process N cfg.sr ⟨P.fltAttack, P.fltDecay, P.fltSustain, P.fltRelease⟩
    let o1 := v.osc1.process N P
    let o2 := v.osc2.process N P
    let s := v.sec.process N P
    let x := N.add (N.add (N.mul (N.sub 1 P.oscMix) o1.1) (N.mul P.oscMix o2.1)) (N.mul P.secLevel s.1)
    let fc := clamp (N.add (N.mul P.cutoff (N.exp2 (N.mul (N.mul e.out P.envDepth) 4))) (N.mul m cfg.lfoToHz))
      20 20000
    let y := v.flt.process N cfg.sr P x fc
    v.process N cfg P m = (N.mul (N.mul y.1 a.out) v.vel,
      { v with aenv := a, fenv := e, osc1 := o1.2, osc2 := o2.2, sec := s.2, flt := y.2 })

/-- The frame of `TICK` (R206, R221): registers, configuration, preset index and stream are as before; a voice
that is not active is as before, and no voice changes its flag, note, velocity or increments. -/
def Obligations.TickLeavesUnchanged : Prop :=
  ∀ s t : State, exec .tick s = .next t →
    t.cfg = s.cfg ∧ t.params = s.params ∧ t.presetIndex = s.presetIndex ∧ t.stream = s.stream
    ∧ t.voices.length = s.voices.length
    ∧ ∀ (i : Nat) (v u : Voice Scalar), s.voices[i]? = some v → t.voices[i]? = some u →
        (voiceActive v = false → u = v)
        ∧ u.active = v.active ∧ u.note = v.note ∧ u.vel = v.vel ∧ u.osc1.inc = v.osc1.inc
        ∧ u.osc2.inc = v.osc2.inc ∧ u.sec.inc = v.sec.inc

/-- R63, R69, R241, R245, R249: a tick stores to one element of each of the ten rings, the one at the ring's
position before the tick: in a ring in its canonical form (log entry 10) that element then reads the number the
rule of its effect stores, and every other element of every ring reads as before. -/
def Obligations.TickStoresOneElementPerRing : Prop :=
  ∀ s t : State, exec .tick s = .next t →
    let N := s.num
    let P := s.params
    let sr := s.cfg.sr
    let len := 2 * sr.hz
    let w := s.chorus.w % 4096
    let u := s.delay.w % len
    let p0 := s.reverb.comb0.pos % 2999
    let p1 := s.reverb.comb1.pos % 3407
    let p2 := s.reverb.comb2.pos % 3701
    let p3 := s.reverb.comb3.pos % 4003
    let q0 := s.reverb.ap0.pos % 521
    let q1 := s.reverb.ap1.pos % 337
    let mono := (monoTick N s.toStateOf).1
    let c := (s.chorus.process N sr P ⟨mono, mono⟩).1
    let back := (((s.delay.w : Int) - delaySamples N sr P) % len).toNat
    let d := (s.delay.process N sr P c).1
    let avg := N.mul (N.add d.left d.right) (1 / 2)
    let d0 := s.reverb.comb0.buf.read p0
    let d1 := s.reverb.comb1.buf.read p1
    let d2 := s.reverb.comb2.buf.read p2
    let d3 := s.reverb.comb3.buf.read p3
    let y := N.mul (N.add (N.add (N.add (N.add 0 d0) d1) d2) d3) (1 / 4)
    let e0 := s.reverb.ap0.buf.read q0
    let z := N.add (N.mul (-(7 / 10)) y) e0
    let e1 := s.reverb.ap1.buf.read q1
    let stores : Memory Scalar → Memory Scalar → Nat → Scalar → Prop := fun before after slot v =>
      (before.wf = true → after.read slot = v) ∧ ∀ a, a ≠ slot → after.read a = before.read a
    stores s.chorus.bufL t.chorus.bufL w mono ∧ stores s.chorus.bufR t.chorus.bufR w mono
    ∧ stores s.delay.bufL t.delay.bufL u (N.add c.left (N.mul P.delayFeedback (s.delay.bufL.read back)))
    ∧ stores s.delay.bufR t.delay.bufR u (N.add c.right (N.mul P.delayFeedback (s.delay.bufR.read back)))
    ∧ stores s.reverb.comb0.buf t.reverb.comb0.buf p0 (N.add avg (N.mul (N.mul (161 / 200) P.reverbDecay) d0))
    ∧ stores s.reverb.comb1.buf t.reverb.comb1.buf p1 (N.add avg (N.mul (N.mul (827 / 1000) P.reverbDecay) d1))
    ∧ stores s.reverb.comb2.buf t.reverb.comb2.buf p2 (N.add avg (N.mul (N.mul (783 / 1000) P.reverbDecay) d2))
    ∧ stores s.reverb.comb3.buf t.reverb.comb3.buf p3 (N.add avg (N.mul (N.mul (191 / 250) P.reverbDecay) d3))
    ∧ stores s.reverb.ap0.buf t.reverb.ap0.buf q0 (N.add y (N.mul (7 / 10) e0))
    ∧ stores s.reverb.ap1.buf t.reverb.ap1.buf q1 (N.add z (N.mul (7 / 10) e1))

/-- R61: every ring position lies in its ring, advances by 1 modulo the length at each `TICK`, and is changed by
no other command. -/
def Obligations.RingPositions : Prop :=
  ∀ (i : Instr) (s t : State), exec i s = .next t →
    let next : Nat → Nat → Nat := fun len p => if i = .tick then (p + 1) % len else p
    let inRing : State → Prop := fun s =>
      s.chorus.w < 4096 ∧ s.delay.w < 2 * s.cfg.sr.hz ∧ s.reverb.comb0.pos < 2999 ∧ s.reverb.comb1.pos < 3407
      ∧ s.reverb.comb2.pos < 3701 ∧ s.reverb.comb3.pos < 4003 ∧ s.reverb.ap0.pos < 521
      ∧ s.reverb.ap1.pos < 337
    t.chorus.w = next 4096 s.chorus.w ∧ t.delay.w = next (2 * s.cfg.sr.hz) s.delay.w
    ∧ t.reverb.comb0.pos = next 2999 s.reverb.comb0.pos ∧ t.reverb.comb1.pos = next 3407 s.reverb.comb1.pos
    ∧ t.reverb.comb2.pos = next 3701 s.reverb.comb2.pos ∧ t.reverb.comb3.pos = next 4003 s.reverb.comb3.pos
    ∧ t.reverb.ap0.pos = next 521 s.reverb.ap0.pos ∧ t.reverb.ap1.pos = next 337 s.reverb.ap1.pos
    ∧ (inRing s → inRing t) ∧ ∀ c, inRing (State.resetWith c)

/-- R21, R332: the voices do not interact: what a tick makes of voice `i` depends on that voice, the registers,
the configuration and the LFO, and on no other voice, ring or index. -/
def Obligations.VoicesDoNotInteract : Prop :=
  ∀ (s s' t t' : State) (i : Nat), s.cfg = s'.cfg → s.params = s'.params → s.lfo = s'.lfo →
    s.voices[i]? = s'.voices[i]? → exec .tick s = .next t → exec .tick s' = .next t' →
    t.voices[i]? = t'.voices[i]?

/-- R36, R341: whatever the reset registers are, every frame of a run that starts at reset and holds no
`NOTE_ON` is (0, 0). In a rounding format this rests on a law of log entry 2, that `rnd` fixes 0 (R9, U1). -/
def Obligations.SilentUntilNoteOn : Prop :=
  ∀ (c : Cfg Scalar) (commands : List Instr) (t : State),
    (∀ i ∈ commands, ∀ n x, i ≠ .noteOn n x) →
    commands.foldlM (fun s i => match exec i s with | .next s' => some s' | _ => none) (State.resetWith c)
      = some t →
    ∀ f ∈ t.frames, f = ⟨0, 0⟩

/-! ## Who writes what -/

/-- R7, R23, R25, R33, R60, R75: which commands can change each part of the state, and no other can. -/
def Obligations.WhoWritesWhat : Prop :=
  ∀ (i : Instr) (s t : State), exec i s = .next t →
    t.cfg = s.cfg ∧ t.stream = s.stream
    ∧ (t.params ≠ s.params → opField (encode i) = 0x06 ∨ ∃ k, i = .loadPreset k)
    ∧ (t.presetIndex ≠ s.presetIndex → ∃ k, i = .loadPreset k)
    ∧ (t.lfo ≠ s.lfo → i = .tick ∨ i = .lfoSync)
    ∧ (t.voices ≠ s.voices → i = .tick ∨ i = .allNotesOff ∨ (∃ n, i = .noteOff n) ∨ ∃ n x, i = .noteOn n x)
    ∧ (t.chorus ≠ s.chorus ∨ t.delay ≠ s.delay ∨ t.reverb ≠ s.reverb → i = .tick ∨ ∃ k, i = .fxClear k)
    ∧ (t.voices.map Voice.active ≠ s.voices.map Voice.active → ∃ n x, i = .noteOn n x)

/-! ## Effects at rest -/

/-- R251, R240: with the three mixes at 0 the frame that leaves the chain is the one that entered it, for a pair
of numbers of the machine's format; the pair a tick puts in is one. In a rounding format the passthrough rests on
laws of log entry 2, that `rnd` fixes 0, 1 and its own values (the property U1 asks to be named). -/
def Obligations.DryPassthrough : Prop :=
  ∀ s : State, s.params.chorusMix = 0 → s.params.delayMix = 0 → s.params.reverbMix = 0 →
    (∀ x : Frame Scalar, s.num.inT x.left → s.num.inT x.right → (effectsTick s.num s.toStateOf x).1 = x)
    ∧ ∃ t, exec .tick s = .next t ∧ ∃ mono, mono = (monoTick s.num s.toStateOf).1 ∧ s.num.inT mono
        ∧ t.frames = s.frames ++ [⟨mono, mono⟩]

/-- R222: while every tick has found CHORUS_MIX at 0, the two delay rings are equal and every frame has
`L = R`. -/
def Obligations.MonoWhileChorusIsDry : Prop :=
  ∀ (i : Instr) (s t : State), exec i s = .next t → s.delay.bufL = s.delay.bufR →
    (i = .tick → s.params.chorusMix = 0) →
    t.delay.bufL = t.delay.bufR ∧ (i = .tick → ∃ x, t.frames = s.frames ++ [⟨x, x⟩])

/-! ## LFO -/

/-- R163, R164: the LFO's value, its phase, and its draw exactly on a wrap. -/
def Obligations.LfoProcess : Prop :=
  ∀ (X : Type) [Field X] [LinearOrder X] [IsStrictOrderedRing X] [FloorRing X]
      (N : Numerics X) (sr : SampleRate) (P : Params X) (l : Lfo X),
    let p := l.phase
    let v : X := match P.lfoShape with
      | .sine => N.sin (N.mul (N.timesPi 2) p)
      | .triangle => N.sub 1 (N.mul 4 |N.sub p (1 / 2)|)
      | .sawUp => N.sub (N.mul 2 p) 1
      | .sawDown => N.sub 1 (N.mul 2 p)
      | .square => if p < 1 / 2 then 1 else -1
      | .sampleHold => l.held
    let np := wrap1 N (N.add p (N.div P.lfoRate sr.hz))
    l.process N sr P = (v,
      if np < p then ⟨np, (N.next l.g).2, (N.next l.g).1⟩ else ⟨np, l.held, l.g⟩)

/-- R25, R163: the value lies in [−1, 1], and the LFO stays in its ranges, in every lawful format; the rate is a
legal one, or any where nothing is rounded. -/
def Obligations.LfoRange : Prop :=
  ∀ (X : Type) [Field X] [LinearOrder X] [IsStrictOrderedRing X] [FloorRing X]
      (N : Numerics X) (sr : SampleRate) (P : Params X) (l : Lfo X), N.Exact ∨ N.Lawful ∧ 0 ≤ P.lfoRate →
    (0 ≤ l.phase ∧ l.phase < 1 ∧ -1 ≤ l.held ∧ l.held < 1) →
    let r := l.process N sr P
    0 ≤ r.2.phase ∧ r.2.phase < 1 ∧ -1 ≤ r.2.held ∧ r.2.held < 1 ∧ -1 ≤ r.1 ∧ r.1 ≤ 1

/-- R161, R164: where nothing is rounded, the phase after `n` calls, and `LFO.held` and its generator untouched
while no call wraps. -/
def Obligations.LfoPhaseAfterCalls : Prop :=
  ∀ (X : Type) [Field X] [LinearOrder X] [IsStrictOrderedRing X] [FloorRing X]
      (N : Numerics X) (sr : SampleRate) (P : Params X) (l : Lfo X) (n : Nat), N.rnd = id →
    0 ≤ l.phase → l.phase < 1 → 0 ≤ P.lfoRate →
    let after := (fun k => (k.process N sr P).2)^[n] l
    after.phase = Int.fract (l.phase + n * (P.lfoRate / sr.hz))
    ∧ (l.phase + n * (P.lfoRate / sr.hz) < 1 → after.held = l.held ∧ after.g = l.g)

/-- R166: `LFO_SYNC` puts the phase at 0 and changes nothing else. -/
def Obligations.LfoSyncResetsPhase : Prop :=
  ∀ s : State, exec .lfoSync s = .next { s with lfo := { s.lfo with phase := 0 } }

/-! ## Oscillator and secondary engine -/

/-- R113: the step correction in every format; where nothing is rounded its two parabolas, its values at the
edges, and its range. -/
def Obligations.BlepCorrection : Prop :=
  ∀ (X : Type) [Field X] [LinearOrder X] [IsStrictOrderedRing X] [FloorRing X]
      (N : Numerics X) (t dt : X),
    (let u := N.div t dt; t < dt → blep N t dt = N.sub (N.sub (N.mul 2 u) (N.mul u u)) 1)
    ∧ (let u := N.div (N.sub t 1) dt; ¬ t < dt → N.sub 1 dt < t → blep N t dt = N.add (N.add (N.mul u u) (N.mul 2 u)) 1)
    ∧ (¬ t < dt → ¬ N.sub 1 dt < t → blep N t dt = 0)
    ∧ (N.rnd = id → 0 ≤ t → t < 1 → 0 ≤ dt →
        (t < dt → blep N t dt = -(t / dt - 1) ^ 2)
        ∧ (¬ t < dt → 1 - dt < t → blep N t dt = ((t - 1) / dt + 1) ^ 2)
        ∧ (¬ t < dt → ¬ 1 - dt < t → blep N t dt = 0)
        ∧ blep N t 0 = 0 ∧ (0 < dt → blep N 0 dt = -1) ∧ -1 ≤ blep N t dt ∧ blep N t dt ≤ 1)

/-- R114 to R117, R10: the generators in every format. The sine is 0, 1 and −1 at 0, 1/4 and 3/4 where nothing is
rounded, by the laws of log entry 2, and in the reference instance it is the sine of 2π times the phase. -/
def Obligations.Generators : Prop :=
  (∀ (X : Type) [Field X] [LinearOrder X] [IsStrictOrderedRing X] [FloorRing X]
      (N : Numerics X) (t dt : X),
    sineWave N t = N.sin (N.mul (N.timesPi 2) t)
    ∧ triWave N t = N.sub 1 (N.mul 4 |N.sub t (1 / 2)|)
    ∧ sawWave N t dt = N.sub (N.sub (N.mul 2 t) 1) (blep N t dt)
    ∧ squareWave N t dt = N.sub (N.add (if t < 1 / 2 then 1 else -1) (blep N t dt))
        (blep N (wrap1 N (N.sub (N.add t 1) (1 / 2))) dt)
    ∧ (N.Exact → sineWave N 0 = 0 ∧ sineWave N (1 / 4) = 1 ∧ sineWave N (3 / 4) = -1))
  ∧ ∀ (next : Nat → Nat × ℝ) (t : ℝ), sineWave (Numerics.reference next) t = Real.sin (2 * Real.pi * t)

/-- R118, R119, R111: the sample of the pre-advance phase, normalised by the weights' sum; silence when the sum
is not positive; one draw and one advance on every call; where nothing is rounded, scaling every weight changes no
sample. -/
def Obligations.OscillatorBlend : Prop :=
  ∀ (X : Type) [Field X] [LinearOrder X] [IsStrictOrderedRing X] [FloorRing X]
      (N : Numerics X) (P : Params X) (o : Osc X),
    let weights := N.add (N.add (N.add (N.add P.mixSine P.mixTri) P.mixSaw) P.mixSquare) P.mixNoise
    let sum := N.add (N.add (N.add (N.add (N.mul P.mixSine (sineWave N o.phase))
      (N.mul P.mixTri (triWave N o.phase))) (N.mul P.mixSaw (sawWave N o.phase o.inc)))
      (N.mul P.mixSquare (squareWave N o.phase o.inc))) (N.mul P.mixNoise (N.next o.g).2)
    o.process N P = (if 0 < weights then N.div sum weights else 0,
      ⟨wrap1 N (N.add o.phase o.inc), o.inc, (N.next o.g).1⟩)
    ∧ (N.rnd = id → ∀ k : X, 0 < k →
      (o.process N { P with mixSine := k * P.mixSine, mixTri := k * P.mixTri, mixSaw := k * P.mixSaw,
                            mixSquare := k * P.mixSquare, mixNoise := k * P.mixNoise }).1 = (o.process N P).1)

/-- R111: the phase stays in [0, 1) in every lawful format; where nothing is rounded it does whatever the phase
and increment were, and after `n` calls from phase 0 it is `(inc × n) mod 1`. -/
def Obligations.PhaseAfterCalls : Prop :=
  ∀ (X : Type) [Field X] [LinearOrder X] [IsStrictOrderedRing X] [FloorRing X]
      (N : Numerics X) (P : Params X) (o : Osc X) (n : Nat),
    o.advance N = { o with phase := wrap1 N (N.add o.phase o.inc) }
    ∧ (N.rnd = id ∨ N.Lawful ∧ 0 ≤ o.phase ∧ 0 ≤ o.inc →
        0 ≤ (o.advance N).phase ∧ (o.advance N).phase < 1)
    ∧ (N.rnd = id → o.phase = 0 → ((fun k => (k.process N P).2)^[n] o).phase = Int.fract (n * o.inc))

/-- R131, R133: the secondary engine's sample in each mode, one draw and one advance in every mode; a zero index
gives a pure sine and a morph position of 1 the naive saw, in every lawful format. -/
def Obligations.SecondaryProcess : Prop :=
  ∀ (X : Type) [Field X] [LinearOrder X] [IsStrictOrderedRing X] [FloorRing X]
      (N : Numerics X) (P : Params X) (e : Sec X),
    let t := e.phase
    let modIndex := N.mul 8 P.secIndex
    let ratio := N.add 1 (N.mul 7 P.secRatio)
    let turn := N.timesPi 2
    let saw := N.sub (N.mul 2 t) 1
    let out := match P.secMode with
      | .pm => N.sin (N.add (N.mul turn t) (N.mul modIndex (N.sin (N.mul (N.mul turn ratio) t))))
      | .morph => N.add (N.mul (N.sub 1 P.secShape) (N.sin (N.mul turn t))) (N.mul P.secShape saw)
      | .noise => (N.next e.g).2
    e.process N P = (out, ⟨wrap1 N (N.add t e.inc), e.inc, (N.next e.g).1⟩)
    ∧ (N.Lawful → (P.secMode = .pm → P.secIndex = 0 → (e.process N P).1 = N.sin (N.mul turn t))
        ∧ (P.secMode = .morph → P.secShape = 1 → (e.process N P).1 = saw))

/-! ## Envelope -/

/-- R145 to R147: the three events. -/
def Obligations.EnvelopeEvents : Prop :=
  ∀ (X : Type) [Field X] (e : Env X), e.noteOn = ⟨.attack, e.out⟩
    ∧ (e.stage ≠ .idle → e.noteOff = ⟨.release, e.out⟩) ∧ (e.stage = .idle → e.noteOff = e)
    ∧ e.noteOff.noteOff = e.noteOff ∧ e.kill = ⟨.idle, 0⟩

/-- R143, R144, R148 to R153: the per-sample step of each stage. -/
def Obligations.EnvelopeProcess : Prop :=
  ∀ (X : Type) [Field X] [LinearOrder X] [IsStrictOrderedRing X] [FloorRing X]
      (N : Numerics X) (sr : SampleRate) (a d s r out : X),
    let k : X → X := fun time => N.sub 1 (N.exp (N.div (-(22 / 10)) (N.mul time sr.hz)))
    let toward : X → X → X := fun c target => N.add out (N.mul c (N.sub target out))
    let up := toward (k a) (13 / 10)
    let down := toward (k d) s
    let off := toward (k r) 0
    let process : Stage → Env X := fun stage => Env.process N sr ⟨a, d, s, r⟩ ⟨stage, out⟩
    (1 ≤ up → process .attack = ⟨.decay, 1⟩) ∧ (up < 1 → process .attack = ⟨.attack, up⟩)
    ∧ (|N.sub down s| ≤ 1 / 1000 → process .decay = ⟨.sustain, s⟩)
    ∧ (1 / 1000 < |N.sub down s| → process .decay = ⟨.decay, down⟩)
    ∧ process .sustain = ⟨.sustain, s⟩
    ∧ (off ≤ 1 / 1000 → process .release = ⟨.idle, 0⟩) ∧ (1 / 1000 < off → process .release = ⟨.release, off⟩)
    ∧ process .idle = ⟨.idle, out⟩

/-- R154, R143, R29: with legal registers the level stays in [0, 1] and an IDLE envelope is at 0, in every lawful
format; the coefficients lie in [0, 1], and strictly inside where nothing is rounded. -/
def Obligations.EnvelopeRange : Prop :=
  ∀ (X : Type) [Field X] [LinearOrder X] [IsStrictOrderedRing X] [FloorRing X]
      (N : Numerics X) (sr : SampleRate) (a : Adsr X) (e : Env X), N.Lawful →
    within (1 / 1000) 10 a.attack → within (1 / 1000) 10 a.decay → within 0 1 a.sustain →
    within (1 / 1000) 10 a.release → envLegal N e →
    (∀ time ∈ [a.attack, a.decay, a.release],
        within 0 1 (coef N sr time) ∧ (N.Exact → 0 < coef N sr time ∧ coef N sr time < 1))
    ∧ envLegal N (e.process N sr a) ∧ envLegal N e.noteOn ∧ envLegal N e.noteOff ∧ envLegal N e.kill

/-- R149: the attack's closed form where nothing is rounded: from level 0, while no step has reached 1, the level
after `n` steps is `1.3 × (1 − (1 − c)^n)`; in the reference instance `c` is `1 − e^(−2.2/(A × SR))`. -/
def Obligations.AttackClosedForm : Prop :=
  (∀ (X : Type) [Field X] [LinearOrder X] [IsStrictOrderedRing X] [FloorRing X]
      (N : Numerics X) (sr : SampleRate) (a : Adsr X) (n : Nat), N.Exact → within (1 / 1000) 10 a.attack →
    let c := coef N sr a.attack
    13 / 10 * (1 - (1 - c) ^ n) < 1 →
    (Env.process N sr a)^[n] ⟨.attack, 0⟩ = ⟨.attack, 13 / 10 * (1 - (1 - c) ^ n)⟩)
  ∧ ∀ (next : Nat → Nat × ℝ) (sr : SampleRate) (time : ℝ),
      coef (Numerics.reference next) sr time = 1 - Real.exp (-2.2 / (time * sr.hz))

/-! ## Filter -/

/-- R179: the soft clip: its formula between −3 and 3 and ±1 beyond, in every format; where nothing is rounded,
odd, at most 1 in magnitude, increasing on [−3, 3]. -/
def Obligations.SoftClip : Prop :=
  ∀ (X : Type) [Field X] [LinearOrder X] [IsStrictOrderedRing X] [FloorRing X]
      (N : Numerics X),
    (∀ x : X, (-3 ≤ x → x ≤ 3 →
          softClip N x = N.div (N.mul x (N.add 27 (N.mul x x))) (N.add 27 (N.mul 9 (N.mul x x))))
        ∧ (3 < x → softClip N x = 1) ∧ (x < -3 → softClip N x = -1))
    ∧ (N.rnd = id → ∀ x : X, (-3 ≤ x → x ≤ 3 → softClip N x = x * (27 + x ^ 2) / (27 + 9 * x ^ 2))
        ∧ softClip N (-x) = -softClip N x ∧ |softClip N x| ≤ 1)
    ∧ (N.rnd = id → ∀ x y : X, -3 ≤ x → x < y → y ≤ 3 → softClip N x < softClip N y)

/-- R180, R181: the coefficients, two integration passes on the driven input, and the output the mode selects. -/
def Obligations.SvfProcess : Prop :=
  ∀ (X : Type) [Field X] [LinearOrder X] [IsStrictOrderedRing X] [FloorRing X]
      (N : Numerics X) (sr : SampleRate) (P : Params X) (x fc : X) (s : Machine.Filter X), P.filterType = .svf →
    let fcc := clamp fc 20 (N.div (N.mul (9 / 10) sr.hz) 2)
    let f := N.mul 2 (N.sin (N.div (N.timesPi fcc) sr.hz))
    let q := N.sub 2 (N.mul 2 (min P.resonance (99 / 100)))
    let xd := if 0 < P.drive then softClip N (N.mul x (N.add 1 (N.mul 3 P.drive))) else x
    let low1 := N.add s.low (N.mul f s.band)
    let high1 := N.sub (N.sub xd low1) (N.mul q s.band)
    let band1 := N.add s.band (N.mul f high1)
    let low2 := N.add low1 (N.mul f band1)
    let high2 := N.sub (N.sub xd low2) (N.mul q band1)
    let band2 := N.add band1 (N.mul f high2)
    let notch2 := N.add high2 low2
    let y := match P.filterMode with | .lp => low2 | .hp => high2 | .bp => band2 | .notch => notch2
    s.process N sr P x fc = (if 1 / 2 < P.drive then softClip N y else y,
      { s with low := low2, high := high2, band := band2, notch := notch2 })

/-- R183, R184: the coefficients, and four saturating stages in order; the mode is not read. Each stage is in
[−1, 1] where nothing is rounded, and in every format whose soft clip keeps to that range (`ClipBounded`). -/
def Obligations.LadderProcess : Prop :=
  ∀ (X : Type) [Field X] [LinearOrder X] [IsStrictOrderedRing X] [FloorRing X]
      (N : Numerics X) (sr : SampleRate) (P : Params X) (x fc : X) (s : Machine.Filter X), P.filterType = .ladder →
    let fcc := clamp fc 20 (N.div (N.mul (45 / 100) sr.hz) 2)
    let wc := N.mul 2 (N.tan (N.div (N.timesPi fcc) sr.hz))
    let g := N.div wc (N.add 1 wc)
    let u := N.sub (N.mul x (N.add 1 (N.mul 3 P.drive))) (N.mul (N.mul 4 P.resonance) s.s3)
    let stage : X → X → X := fun input s => softClip N (N.add s (N.mul g (N.sub input s)))
    let s0 := stage u s.s0
    let s1 := stage s0 s.s1
    let s2 := stage s1 s.s2
    let s3 := stage s2 s.s3
    s.process N sr P x fc = (s3, { s with s0 := s0, s1 := s1, s2 := s2, s3 := s3 })
      ∧ (N.rnd = id ∨ ClipBounded N → |s0| ≤ 1 ∧ |s1| ≤ 1 ∧ |s2| ≤ 1 ∧ |s3| ≤ 1)

/-- R180, R183: where nothing is rounded, for every requested cutoff the SVF's `f` lies in (0, 2] and its `q` in
[0.02, 2], the ladder's `g` in (0, 1) and its `k` in [0, 4], by the laws of log entry 2; in the reference instance
`f ≤ 2 sin(0.45 π)` and `wc ≤ 2 tan(0.225 π)`. -/
def Obligations.FilterCoefficients : Prop :=
  (∀ (X : Type) [Field X] [LinearOrder X] [IsStrictOrderedRing X] [FloorRing X]
      (N : Numerics X) (sr : SampleRate) (P : Params X) (fc : X), N.Exact → within 0 1 P.resonance →
    (0 < svfF N sr fc ∧ svfF N sr fc ≤ 2) ∧ (2 / 100 ≤ svfQ N P ∧ svfQ N P ≤ 2)
    ∧ (0 < ladderG N sr fc ∧ ladderG N sr fc < 1) ∧ (0 ≤ ladderK N P ∧ ladderK N P ≤ 4))
  ∧ ∀ (next : Nat → Nat × ℝ) (sr : SampleRate) (fc : ℝ), let R := Numerics.reference next
      (0 < svfF R sr fc ∧ svfF R sr fc ≤ 2 * Real.sin (45 / 100 * Real.pi))
      ∧ 0 < ladderWc R sr fc ∧ ladderWc R sr fc ≤ 2 * Real.tan (225 / 1000 * Real.pi)

/-! ## Rings and effects -/

/-- R62, R63: a ring in its canonical form reads back what was stored, every other element as before, an index is
taken modulo the length whatever its sign, and the form is kept. -/
def Obligations.RingAccess : Prop :=
  ∀ (X : Type) [Field X] [LinearOrder X] (n : Nat) (b : Memory X) (k j : Int) (v : X),
    0 < n → b.wf = true → b.fits n = true →
    bufRead n (bufWrite n b k v) k = v
    ∧ ((k - j) % n ≠ 0 → bufRead n (bufWrite n b k v) j = bufRead n b j)
    ∧ bufRead n b (k + n) = bufRead n b k
    ∧ (bufWrite n b k v).wf = true ∧ (bufWrite n b k v).fits n = true

/-- R64: linear interpolation between the two elements behind the write index; an integer offset reads one
element exactly, where that element is a number of the format. -/
def Obligations.FractionalRead : Prop :=
  ∀ (X : Type) [Field X] [LinearOrder X] [IsStrictOrderedRing X] [FloorRing X]
      (N : Numerics X) (n : Nat) (b : Memory X) (w : Nat) (d : X),
    let a := b.read (((w : Int) - ⌊d⌋) % n).toNat
    let c := b.read (((w : Int) - ⌊d⌋ - 1) % n).toNat
    fracRead N n b w d = N.add a (N.mul (N.sub d (⌊d⌋ : X)) (N.sub c a))
    ∧ (N.Lawful → N.inT a → ∀ k : Nat, d = k → fracRead N n b w d = a)

/-- R77: with legal registers and nothing rounded the chorus's offset lies between 0.004 and 0.010 s, so that for
every write index neither element it reads is the one written in the same tick; the delay's offset lies between 1
and DELAY_LEN − 1 in every format, so that it never reads the element of the write index either. -/
def Obligations.ReadOffsetsStayInRing : Prop :=
  ∀ (X : Type) [Field X] [LinearOrder X] [IsStrictOrderedRing X] [FloorRing X]
      (N : Numerics X) (sr : SampleRate) (P : Params X) (ph : X),
    (N.Exact → within 0 1 P.chorusDepth →
      let d := chorusOffset N sr P ph
      (4 / 1000 * sr.hz ≤ d ∧ d ≤ 10 / 1000 * sr.hz) ∧ 1 ≤ ⌊d⌋ ∧ ⌊d⌋ + 1 < 4096
      ∧ ∀ w : Nat, ((w : Int) - ⌊d⌋) % 4096 ≠ (w : Int) % 4096
        ∧ ((w : Int) - ⌊d⌋ - 1) % 4096 ≠ (w : Int) % 4096)
    ∧ (let back := delaySamples N sr P
      let len : Int := 2 * (sr.hz : Int)
      1 ≤ back ∧ back ≤ len - 1 ∧ ∀ w : Nat, ((w : Int) - back) % len ≠ (w : Int) % len)

/-- R241: the chorus. -/
def Obligations.ChorusProcess : Prop :=
  ∀ (X : Type) [Field X] [LinearOrder X] [IsStrictOrderedRing X] [FloorRing X]
      (N : Numerics X) (sr : SampleRate) (P : Params X) (x : Frame X) (c : Chorus X),
    let bufL := bufWrite 4096 c.bufL c.w x.left
    let bufR := bufWrite 4096 c.bufR c.w x.right
    let offset : X → X := fun ph => N.mul (N.add (7 / 1000)
      (N.mul (N.mul P.chorusDepth (3 / 1000)) (N.sin (N.mul (N.timesPi 2) ph)))) sr.hz
    let wetL := fracRead N 4096 bufL c.w (offset c.phL)
    let wetR := fracRead N 4096 bufR c.w (offset c.phR)
    let mixed : X → X → X := fun dry wet => N.add (N.mul (N.sub 1 P.chorusMix) dry) (N.mul P.chorusMix wet)
    c.process N sr P x =
      (⟨mixed x.left wetL, mixed x.right wetR⟩,
       ⟨bufL, bufR, (c.w + 1) % 4096, wrap1 N (N.add c.phL (N.div P.chorusRate sr.hz)),
        wrap1 N (N.add c.phR (N.div (N.mul (11 / 10) P.chorusRate) sr.hz))⟩)

/-- R245: the delay. -/
def Obligations.DelayProcess : Prop :=
  ∀ (X : Type) [Field X] [LinearOrder X] [IsStrictOrderedRing X] [FloorRing X]
      (N : Numerics X) (sr : SampleRate) (P : Params X) (x : Frame X) (d : Delay X),
    let len := 2 * sr.hz
    let back : Int := max 1 (min ⌊N.mul P.delayTime sr.hz⌋ ((len : Int) - 1))
    let delL := bufRead len d.bufL ((d.w : Int) - back)
    let delR := bufRead len d.bufR ((d.w : Int) - back)
    let mixed : X → X → X := fun dry wet => N.add (N.mul (N.sub 1 P.delayMix) dry) (N.mul P.delayMix wet)
    d.process N sr P x =
      (⟨mixed x.left delL, mixed x.right delR⟩,
       ⟨bufWrite len d.bufL d.w (N.add x.left (N.mul P.delayFeedback delL)),
        bufWrite len d.bufR d.w (N.add x.right (N.mul P.delayFeedback delR)), (d.w + 1) % len⟩)

/-- R245: what a tick stores is what the delay reads `D` ticks later, in every lawful format: the wet signal of the
`D`-th tick after it is its input plus the feedback of what it read. -/
def Obligations.EchoReturnsAfterDelay : Prop :=
  ∀ (X : Type) [Field X] [LinearOrder X] [IsStrictOrderedRing X] [FloorRing X]
      (N : Numerics X) (sr : SampleRate) (P : Params X) (d : Delay X) (x y : Frame X)
      (between : List (Frame X)), N.Lawful →
    d.bufL.wf = true → d.bufR.wf = true → d.w < 2 * sr.hz →
    (between.length : Int) + 1 = delaySamples N sr P → P.delayMix = 1 →
    let read := fun b : Memory X => bufRead (2 * sr.hz) b ((d.w : Int) - delaySamples N sr P)
    let later := between.foldl (fun d x => (d.process N sr P x).2) (d.process N sr P x).2
    (later.process N sr P y).1 =
      ⟨N.add x.left (N.mul P.delayFeedback (read d.bufL)), N.add x.right (N.mul P.delayFeedback (read d.bufR))⟩

/-- R247, R249: the reverb. -/
def Obligations.ReverbProcess : Prop :=
  ∀ (X : Type) [Field X] [LinearOrder X] [IsStrictOrderedRing X] [FloorRing X]
      (N : Numerics X) (P : Params X) (x : Frame X) (v : Reverb X),
    let avg := N.mul (N.add x.left x.right) (1 / 2)
    let d0 := bufRead 2999 v.comb0.buf v.comb0.pos
    let d1 := bufRead 3407 v.comb1.buf v.comb1.pos
    let d2 := bufRead 3701 v.comb2.buf v.comb2.pos
    let d3 := bufRead 4003 v.comb3.buf v.comb3.pos
    let y := N.mul (N.add (N.add (N.add (N.add 0 d0) d1) d2) d3) (1 / 4)
    let e0 := bufRead 521 v.ap0.buf v.ap0.pos
    let z := N.add (N.mul (-(7 / 10)) y) e0
    let e1 := bufRead 337 v.ap1.buf v.ap1.pos
    let wet := N.add (N.mul (-(7 / 10)) z) e1
    let mixed : X → X := fun dry => N.add (N.mul (N.sub 1 P.reverbMix) dry) (N.mul P.reverbMix wet)
    let fed : X → X → X := fun base d => N.add avg (N.mul (N.mul base P.reverbDecay) d)
    v.process N P x =
      (⟨mixed x.left, mixed x.right⟩,
       { comb0 := ⟨bufWrite 2999 v.comb0.buf v.comb0.pos (fed (161 / 200) d0), (v.comb0.pos + 1) % 2999⟩
         comb1 := ⟨bufWrite 3407 v.comb1.buf v.comb1.pos (fed (827 / 1000) d1), (v.comb1.pos + 1) % 3407⟩
         comb2 := ⟨bufWrite 3701 v.comb2.buf v.comb2.pos (fed (783 / 1000) d2), (v.comb2.pos + 1) % 3701⟩
         comb3 := ⟨bufWrite 4003 v.comb3.buf v.comb3.pos (fed (191 / 250) d3), (v.comb3.pos + 1) % 4003⟩
         ap0 := ⟨bufWrite 521 v.ap0.buf v.ap0.pos (N.add y (N.mul (7 / 10) e0)), (v.ap0.pos + 1) % 521⟩
         ap1 := ⟨bufWrite 337 v.ap1.buf v.ap1.pos (N.add z (N.mul (7 / 10) e1)), (v.ap1.pos + 1) % 337⟩ })

/-- R252: `FX_CLEAR` zeroes every element of the named rings, keeps positions, phases and the rings not named,
changes nothing else, and is idempotent. -/
def Obligations.FxClearZeroesRings : Prop :=
  ∀ (mask : BitVec 3) (s : State), ∃ t : State, exec (.fxClear mask) s = .next t
    ∧ t = { s with chorus := t.chorus, delay := t.delay, reverb := t.reverb }
    ∧ (t.chorus.w = s.chorus.w ∧ t.chorus.phL = s.chorus.phL ∧ t.chorus.phR = s.chorus.phR
        ∧ t.delay.w = s.delay.w ∧ t.reverb.comb0.pos = s.reverb.comb0.pos
        ∧ t.reverb.comb1.pos = s.reverb.comb1.pos ∧ t.reverb.comb2.pos = s.reverb.comb2.pos
        ∧ t.reverb.comb3.pos = s.reverb.comb3.pos ∧ t.reverb.ap0.pos = s.reverb.ap0.pos
        ∧ t.reverb.ap1.pos = s.reverb.ap1.pos)
    ∧ (mask.getLsbD 0 = true → ∀ a, t.chorus.bufL.read a = 0 ∧ t.chorus.bufR.read a = 0)
    ∧ (mask.getLsbD 0 = false → t.chorus = s.chorus)
    ∧ (mask.getLsbD 1 = true → ∀ a, t.delay.bufL.read a = 0 ∧ t.delay.bufR.read a = 0)
    ∧ (mask.getLsbD 1 = false → t.delay = s.delay)
    ∧ (mask.getLsbD 2 = true → ∀ a, t.reverb.comb0.buf.read a = 0 ∧ t.reverb.comb1.buf.read a = 0
        ∧ t.reverb.comb2.buf.read a = 0 ∧ t.reverb.comb3.buf.read a = 0 ∧ t.reverb.ap0.buf.read a = 0
        ∧ t.reverb.ap1.buf.read a = 0)
    ∧ (mask.getLsbD 2 = false → t.reverb = s.reverb)
    ∧ exec (.fxClear mask) t = .next t

/-! ## The invariant -/

/-- R31, R7: the reset state of every legal configuration is legal, in every lawful number format. In a rounding
format CUTOFF's interval rests on laws of log entry 2, that `rnd` is monotone and fixes 20 (the property U1 asks to
be named). That `State.reset` takes the reference configuration is the model's choice (log entry 5). -/
def Obligations.ResetIsLegal : Prop :=
  (∀ (X : Type) [Field X] [LinearOrder X] [IsStrictOrderedRing X] [FloorRing X]
      (num : NumFormat → Numerics X) (c : Cfg X), (∀ f, (num f).Lawful) → cfgLegal (num c.num) c →
      StateOf.Legal num (StateOf.resetWith c))
  ∧ (∀ c : Cfg Scalar, cfgLegal (Config.num c.num) c → State.Legal (State.resetWith c)) ∧ State.reset.Legal

/-- R21, R23 to R34, R61, R154, R184: every step from a legal state leads to a legal state, whatever the number
format: every register in its interval, every phase in [0, 1), every level in [0, 1] and 0 in IDLE, every ring in
its canonical form with its position in range, the pool of constant size, and the ladder in [−1, 1] where the
format's soft clip keeps to it; so does every step over any numbers, the reals of the reference instance among them,
under any lawful formats. The laws of the formats are those of log entries 2 and 3; the form of the rings is log
entry 10. -/
def Obligations.StepKeepsLegal : Prop :=
  (∀ s t : State, s.Legal → step s = .next t → t.Legal)
  ∧ ∀ (X : Type) [Field X] [LinearOrder X] [IsStrictOrderedRing X] [FloorRing X]
      (num : NumFormat → Numerics X) (s : StateOf X), (∀ f, (num f).Lawful) → s.Legal num → (s.step num).Legal num

end
end

