-- ==== Sys2Proof/Laws/Decode.lean ====
section
/-! SUPPORT. The fields of a packed word; a masked comparison as a comparison of fields. -/

namespace Sys2Proof

@[simp] theorem opField_packWord (op idx : BitVec 8) (val : BitVec 32) : opField (packWord op idx val) = op := by
  ext i hi; simp only [opField, packWord]; simp; grind

@[simp] theorem idxField_packWord (op idx : BitVec 8) (val : BitVec 32) :
    idxField (packWord op idx val) = idx := by
  ext i hi; simp only [idxField, packWord]; simp; grind

@[simp] theorem valField_packWord (op idx : BitVec 8) (val : BitVec 32) :
    valField (packWord op idx val) = val := by
  ext i hi; simp only [valField, packWord]; simp; grind

@[simp] theorem noteField_packWord (op idx : BitVec 8) (val : BitVec 32) :
    noteField (packWord op idx val) = idx.toNat % 128 := by
  have h : (packWord op idx val).extractLsb' 48 7 = idx.setWidth 7 := by
    ext i hi; simp only [packWord]; simp; grind
  rw [noteField, h, BitVec.toNat_setWidth]

@[simp] theorem indexField_packWord (op idx : BitVec 8) (val : BitVec 32) :
    indexField (packWord op idx val) = idx.toNat := by
  rw [indexField, idxField_packWord]

@[simp] theorem maskField_packWord (op idx : BitVec 8) (val : BitVec 32) :
    maskField (packWord op idx val) = idx.setWidth 3 := by
  ext i hi; simp only [maskField, packWord]; simp; grind

theorem noteField_lt (w : Word) : noteField w < 128 := (w.extractLsb' 48 7).isLt

theorem indexField_lt (w : Word) : indexField w < 256 := (idxField w).isLt

theorem opMask_bit : ∀ i, i < 64 → (0xFF00000000000000 : Word).getLsbD i = decide (56 ≤ i) := by decide

theorem idMask_bit : ∀ i, i < 64 → (0xFFFF000000000000 : Word).getLsbD i = decide (48 ≤ i) := by decide

/-- A word meets an opcode's mask and match exactly when its `op` is that opcode (R96). -/
theorem and_opMask_eq_iff (w : Word) (op : BitVec 8) :
    w &&& 0xFF00000000000000 = packWord op 0 0 ↔ opField w = op := by
  constructor
  · intro h
    have h2 := congrArg opField h
    rw [opField_packWord] at h2
    rw [← h2]
    apply BitVec.eq_of_getLsbD_eq
    intro i hi
    simp only [opField, BitVec.getLsbD_extractLsb', BitVec.getLsbD_and, opMask_bit (56 + i) (by omega)]
    simp
  · rintro rfl
    apply BitVec.eq_of_getLsbD_eq
    intro i hi
    simp only [packWord, opField, BitVec.getLsbD_append, BitVec.getLsbD_extractLsb', BitVec.getLsbD_and,
      opMask_bit i hi]
    simp
    grind

/-- A word meets a parameter's mask and match exactly when its `op` and `idx` are the row's (R97). -/
theorem and_idMask_eq_iff (w : Word) (op id : BitVec 8) :
    w &&& 0xFFFF000000000000 = packWord op id 0 ↔ opField w = op ∧ idxField w = id := by
  constructor
  · intro h
    have h2 := congrArg opField h
    have h3 := congrArg idxField h
    rw [opField_packWord] at h2
    rw [idxField_packWord] at h3
    rw [← h2, ← h3]
    constructor <;> apply BitVec.eq_of_getLsbD_eq <;> intro i hi
    · simp only [opField, BitVec.getLsbD_extractLsb', BitVec.getLsbD_and, idMask_bit (56 + i) (by omega)]
      have : 48 ≤ 56 + i := by omega
      simp [this]
    · simp only [idxField, BitVec.getLsbD_extractLsb', BitVec.getLsbD_and, idMask_bit (48 + i) (by omega)]
      have : 48 ≤ 48 + i := by omega
      simp [this]
  · rintro ⟨rfl, rfl⟩
    apply BitVec.eq_of_getLsbD_eq
    intro i hi
    simp only [packWord, opField, idxField, BitVec.getLsbD_append, BitVec.getLsbD_extractLsb',
      BitVec.getLsbD_and, idMask_bit i hi]
    simp
    grind

end Sys2Proof
end

