-- ==== Sys2Proof/Laws/State.lean ====
section
/-! SUPPORT. One simp lemma per field per update of the state, so that no proof unfolds a record update. -/

namespace Sys2Proof.Machine

section

variable {X : Type}

/-! ## `StateOf.withParams` -/

@[simp] theorem StateOf.withParams_cfg (s : StateOf X) (P : Params X) : (s.withParams P).cfg = s.cfg := rfl
@[simp] theorem StateOf.withParams_params (s : StateOf X) (P : Params X) : (s.withParams P).params = P := rfl
@[simp] theorem StateOf.withParams_lfo (s : StateOf X) (P : Params X) : (s.withParams P).lfo = s.lfo := rfl
@[simp] theorem StateOf.withParams_voices (s : StateOf X) (P : Params X) : (s.withParams P).voices = s.voices := rfl
@[simp] theorem StateOf.withParams_chorus (s : StateOf X) (P : Params X) : (s.withParams P).chorus = s.chorus := rfl
@[simp] theorem StateOf.withParams_delay (s : StateOf X) (P : Params X) : (s.withParams P).delay = s.delay := rfl
@[simp] theorem StateOf.withParams_reverb (s : StateOf X) (P : Params X) : (s.withParams P).reverb = s.reverb := rfl
@[simp] theorem StateOf.withParams_presetIndex (s : StateOf X) (P : Params X) : (s.withParams P).presetIndex =
    s.presetIndex := rfl
@[simp] theorem StateOf.withParams_stream (s : StateOf X) (P : Params X) : (s.withParams P).stream = s.stream := rfl
@[simp] theorem StateOf.withParams_frames (s : StateOf X) (P : Params X) : (s.withParams P).frames = s.frames := rfl

/-! ## `StateOf.output` -/

@[simp] theorem StateOf.output_cfg (s : StateOf X) (x : Frame X) : (s.output x).cfg = s.cfg := rfl
@[simp] theorem StateOf.output_params (s : StateOf X) (x : Frame X) : (s.output x).params = s.params := rfl
@[simp] theorem StateOf.output_lfo (s : StateOf X) (x : Frame X) : (s.output x).lfo = s.lfo := rfl
@[simp] theorem StateOf.output_voices (s : StateOf X) (x : Frame X) : (s.output x).voices = s.voices := rfl
@[simp] theorem StateOf.output_chorus (s : StateOf X) (x : Frame X) : (s.output x).chorus = s.chorus := rfl
@[simp] theorem StateOf.output_delay (s : StateOf X) (x : Frame X) : (s.output x).delay = s.delay := rfl
@[simp] theorem StateOf.output_reverb (s : StateOf X) (x : Frame X) : (s.output x).reverb = s.reverb := rfl
@[simp] theorem StateOf.output_presetIndex (s : StateOf X) (x : Frame X) : (s.output x).presetIndex =
    s.presetIndex := rfl
@[simp] theorem StateOf.output_stream (s : StateOf X) (x : Frame X) : (s.output x).stream = s.stream := rfl
@[simp] theorem StateOf.output_frames (s : StateOf X) (x : Frame X) : (s.output x).frames = s.frames ++ [x] := rfl

variable [Field X]

/-! ## `StateOf.assertReset` -/

@[simp] theorem StateOf.assertReset_cfg (s : StateOf X) (c : Cfg X) :
    (s.assertReset c).cfg = (StateOf.resetWith c).cfg := rfl
@[simp] theorem StateOf.assertReset_params (s : StateOf X) (c : Cfg X) :
    (s.assertReset c).params = (StateOf.resetWith c).params := rfl
@[simp] theorem StateOf.assertReset_lfo (s : StateOf X) (c : Cfg X) :
    (s.assertReset c).lfo = (StateOf.resetWith c).lfo := rfl
@[simp] theorem StateOf.assertReset_voices (s : StateOf X) (c : Cfg X) :
    (s.assertReset c).voices = (StateOf.resetWith c).voices := rfl
@[simp] theorem StateOf.assertReset_chorus (s : StateOf X) (c : Cfg X) :
    (s.assertReset c).chorus = (StateOf.resetWith c).chorus := rfl
@[simp] theorem StateOf.assertReset_delay (s : StateOf X) (c : Cfg X) :
    (s.assertReset c).delay = (StateOf.resetWith c).delay := rfl
@[simp] theorem StateOf.assertReset_reverb (s : StateOf X) (c : Cfg X) :
    (s.assertReset c).reverb = (StateOf.resetWith c).reverb := rfl
@[simp] theorem StateOf.assertReset_presetIndex (s : StateOf X) (c : Cfg X) :
    (s.assertReset c).presetIndex = (StateOf.resetWith c).presetIndex := rfl
@[simp] theorem StateOf.assertReset_stream (s : StateOf X) (c : Cfg X) : (s.assertReset c).stream = s.stream := rfl
@[simp] theorem StateOf.assertReset_frames (s : StateOf X) (c : Cfg X) : (s.assertReset c).frames = s.frames := rfl

end

/-! ## `State.withFetchWord` -/

@[simp] theorem State.withFetchWord_cfg (s : State) (n w : Nat) : (s.withFetchWord n w).cfg = s.cfg := rfl
@[simp] theorem State.withFetchWord_params (s : State) (n w : Nat) : (s.withFetchWord n w).params = s.params := rfl
@[simp] theorem State.withFetchWord_lfo (s : State) (n w : Nat) : (s.withFetchWord n w).lfo = s.lfo := rfl
@[simp] theorem State.withFetchWord_voices (s : State) (n w : Nat) : (s.withFetchWord n w).voices = s.voices := rfl
@[simp] theorem State.withFetchWord_chorus (s : State) (n w : Nat) : (s.withFetchWord n w).chorus = s.chorus := rfl
@[simp] theorem State.withFetchWord_delay (s : State) (n w : Nat) : (s.withFetchWord n w).delay = s.delay := rfl
@[simp] theorem State.withFetchWord_reverb (s : State) (n w : Nat) : (s.withFetchWord n w).reverb = s.reverb := rfl
@[simp] theorem State.withFetchWord_presetIndex (s : State) (n w : Nat) : (s.withFetchWord n w).presetIndex =
    s.presetIndex := rfl
@[simp] theorem State.withFetchWord_stream (s : State) (n w : Nat) : (s.withFetchWord n w).stream =
    .command (BitVec.ofNat 64 (w % 2 ^ n)) :: s.stream := rfl
@[simp] theorem State.withFetchWord_frames (s : State) (n w : Nat) : (s.withFetchWord n w).frames = s.frames := rfl

/-! ## The number format, and running a command -/

@[simp] theorem State.mk_num (t : StateOf Scalar) : (State.mk t).num = Config.num t.cfg.num := rfl
@[simp] theorem State.withFetchWord_num (s : State) (n w : Nat) : (s.withFetchWord n w).num = s.num := rfl
@[simp] theorem State.run_eq (s : State) (effect : Effect Scalar) :
    s.run effect = .next ⟨effect s.num s.toStateOf⟩ := rfl

/-! ## Releases -/

section

variable {X : Type}

@[simp] theorem Voice.noteOff_active (v : Voice X) : v.noteOff.active = v.active := rfl
@[simp] theorem Voice.noteOff_note (v : Voice X) : v.noteOff.note = v.note := rfl
@[simp] theorem Voice.noteOff_vel (v : Voice X) : v.noteOff.vel = v.vel := rfl
@[simp] theorem Voice.noteOff_osc1 (v : Voice X) : v.noteOff.osc1 = v.osc1 := rfl
@[simp] theorem Voice.noteOff_osc2 (v : Voice X) : v.noteOff.osc2 = v.osc2 := rfl
@[simp] theorem Voice.noteOff_sec (v : Voice X) : v.noteOff.sec = v.sec := rfl
@[simp] theorem Voice.noteOff_flt (v : Voice X) : v.noteOff.flt = v.flt := rfl
@[simp] theorem Voice.noteOff_aenv (v : Voice X) : v.noteOff.aenv = v.aenv.noteOff := rfl
@[simp] theorem Voice.noteOff_fenv (v : Voice X) : v.noteOff.fenv = v.fenv.noteOff := rfl
@[simp] theorem Env.noteOn_stage (e : Env X) : e.noteOn.stage = .attack := rfl
@[simp] theorem Env.noteOn_out (e : Env X) : e.noteOn.out = e.out := rfl
@[simp] theorem Env.noteOff_out (e : Env X) : e.noteOff.out = e.out := by
  unfold Env.noteOff; split <;> rfl

/-! ## `resetWith` -/

variable [Field X]

@[simp] theorem StateOf.resetWith_cfg (c : Cfg X) : (StateOf.resetWith c).cfg = c := rfl
@[simp] theorem StateOf.resetWith_params (c : Cfg X) : (StateOf.resetWith c).params = c.resetParams := rfl
@[simp] theorem StateOf.resetWith_lfo (c : Cfg X) : (StateOf.resetWith c).lfo = ⟨0, 0, c.seed 0⟩ := rfl
@[simp] theorem StateOf.resetWith_voices (c : Cfg X) : (StateOf.resetWith c).voices =
    (List.range c.nv).map (Voice.reset c) := rfl
@[simp] theorem StateOf.resetWith_chorus (c : Cfg X) : (StateOf.resetWith c).chorus =
    ⟨Memory.empty, Memory.empty, 0, 0, 0⟩ := rfl
@[simp] theorem StateOf.resetWith_delay (c : Cfg X) : (StateOf.resetWith c).delay =
    ⟨Memory.empty, Memory.empty, 0⟩ := rfl
@[simp] theorem StateOf.resetWith_reverb (c : Cfg X) : (StateOf.resetWith c).reverb =
    ⟨Line.reset, Line.reset, Line.reset, Line.reset, Line.reset, Line.reset⟩ := rfl
@[simp] theorem StateOf.resetWith_presetIndex (c : Cfg X) : (StateOf.resetWith c).presetIndex = none := rfl
@[simp] theorem StateOf.resetWith_stream (c : Cfg X) : (StateOf.resetWith c).stream = [] := rfl
@[simp] theorem StateOf.resetWith_frames (c : Cfg X) : (StateOf.resetWith c).frames = [] := rfl

@[simp] theorem State.resetWith_toStateOf (c : Cfg Scalar) : (State.resetWith c).toStateOf = StateOf.resetWith c := rfl

/-! ## Starts, stolen slots, the LFO's phase -/

@[simp] theorem Voice.kill_note (v : Voice X) : v.kill.note = v.note := rfl
@[simp] theorem Voice.kill_vel (v : Voice X) : v.kill.vel = v.vel := rfl
@[simp] theorem Voice.kill_osc1 (v : Voice X) : v.kill.osc1 = v.osc1 := rfl
@[simp] theorem Voice.kill_osc2 (v : Voice X) : v.kill.osc2 = v.osc2 := rfl
@[simp] theorem Voice.kill_sec (v : Voice X) : v.kill.sec = v.sec := rfl
@[simp] theorem Voice.kill_flt (v : Voice X) : v.kill.flt = v.flt := rfl
@[simp] theorem Voice.kill_active (v : Voice X) : v.kill.active = false := rfl
@[simp] theorem Voice.kill_aenv (v : Voice X) : v.kill.aenv = ⟨.idle, 0⟩ := rfl
@[simp] theorem Voice.kill_fenv (v : Voice X) : v.kill.fenv = ⟨.idle, 0⟩ := rfl
@[simp] theorem Voice.noteOn_active (N : Numerics X) (sr : SampleRate) (n : Nat) (x : X) (v : Voice X) :
    (v.noteOn N sr n x).active = true := rfl
@[simp] theorem Voice.noteOn_note (N : Numerics X) (sr : SampleRate) (n : Nat) (x : X) (v : Voice X) :
    (v.noteOn N sr n x).note = n := rfl
@[simp] theorem Voice.noteOn_vel (N : Numerics X) (sr : SampleRate) (n : Nat) (x : X) (v : Voice X) :
    (v.noteOn N sr n x).vel = x := rfl
@[simp] theorem Voice.noteOn_flt (N : Numerics X) (sr : SampleRate) (n : Nat) (x : X) (v : Voice X) :
    (v.noteOn N sr n x).flt = Filter.zero := rfl
@[simp] theorem Voice.noteOn_aenv (N : Numerics X) (sr : SampleRate) (n : Nat) (x : X) (v : Voice X) :
    (v.noteOn N sr n x).aenv = ⟨.attack, v.aenv.out⟩ := rfl
@[simp] theorem Voice.noteOn_fenv (N : Numerics X) (sr : SampleRate) (n : Nat) (x : X) (v : Voice X) :
    (v.noteOn N sr n x).fenv = ⟨.attack, v.fenv.out⟩ := rfl
@[simp] theorem Lfo.sync_phase (l : Lfo X) : l.sync.phase = 0 := rfl
@[simp] theorem Lfo.sync_held (l : Lfo X) : l.sync.held = l.held := rfl
@[simp] theorem Lfo.sync_g (l : Lfo X) : l.sync.g = l.g := rfl

/-! ## `tick`, before the output -/

variable [LinearOrder X] [FloorRing X]

@[simp] theorem tick_cfg (N : Numerics X) (s : StateOf X) : (tick N s).2.cfg = s.cfg := rfl
@[simp] theorem tick_params (N : Numerics X) (s : StateOf X) : (tick N s).2.params = s.params := rfl
@[simp] theorem tick_presetIndex (N : Numerics X) (s : StateOf X) : (tick N s).2.presetIndex = s.presetIndex := rfl
@[simp] theorem tick_stream (N : Numerics X) (s : StateOf X) : (tick N s).2.stream = s.stream := rfl
@[simp] theorem tick_frames (N : Numerics X) (s : StateOf X) : (tick N s).2.frames = s.frames := rfl
@[simp] theorem tick_lfo (N : Numerics X) (s : StateOf X) : (tick N s).2.lfo =
    (s.lfo.process N s.cfg.sr s.params).2 := rfl
@[simp] theorem tick_voices (N : Numerics X) (s : StateOf X) : (tick N s).2.voices = (monoTick N s).2.2 := rfl

/-! ## One call of a unit -/

@[simp] theorem Voice.process_active (N : Numerics X) (c : Cfg X) (P : Params X) (m : X) (v : Voice X) :
    (v.process N c P m).2.active = v.active := rfl
@[simp] theorem Voice.process_note (N : Numerics X) (c : Cfg X) (P : Params X) (m : X) (v : Voice X) :
    (v.process N c P m).2.note = v.note := rfl
@[simp] theorem Voice.process_vel (N : Numerics X) (c : Cfg X) (P : Params X) (m : X) (v : Voice X) :
    (v.process N c P m).2.vel = v.vel := rfl
@[simp] theorem Voice.process_aenv (N : Numerics X) (c : Cfg X) (P : Params X) (m : X) (v : Voice X) :
    (v.process N c P m).2.aenv = v.aenv.process N c.sr (ampAdsr P) := rfl
@[simp] theorem Voice.process_fenv (N : Numerics X) (c : Cfg X) (P : Params X) (m : X) (v : Voice X) :
    (v.process N c P m).2.fenv = v.fenv.process N c.sr (fltAdsr P) := rfl
@[simp] theorem Voice.process_osc1 (N : Numerics X) (c : Cfg X) (P : Params X) (m : X) (v : Voice X) :
    (v.process N c P m).2.osc1 = (v.osc1.process N P).2 := rfl
@[simp] theorem Voice.process_osc2 (N : Numerics X) (c : Cfg X) (P : Params X) (m : X) (v : Voice X) :
    (v.process N c P m).2.osc2 = (v.osc2.process N P).2 := rfl
@[simp] theorem Voice.process_sec (N : Numerics X) (c : Cfg X) (P : Params X) (m : X) (v : Voice X) :
    (v.process N c P m).2.sec = (v.sec.process N P).2 := rfl
@[simp] theorem Osc.advance_inc (N : Numerics X) (o : Osc X) : (o.advance N).inc = o.inc := rfl
@[simp] theorem Osc.advance_g (N : Numerics X) (o : Osc X) : (o.advance N).g = o.g := rfl
@[simp] theorem Osc.process_phase (N : Numerics X) (P : Params X) (o : Osc X) :
    (o.process N P).2.phase = wrap1 N (N.add o.phase o.inc) := rfl
@[simp] theorem Osc.process_inc (N : Numerics X) (P : Params X) (o : Osc X) : (o.process N P).2.inc = o.inc := rfl
@[simp] theorem Osc.process_g (N : Numerics X) (P : Params X) (o : Osc X) : (o.process N P).2.g = (N.next o.g).1 := rfl
@[simp] theorem Sec.process_phase (N : Numerics X) (P : Params X) (e : Sec X) :
    (e.process N P).2.phase = wrap1 N (N.add e.phase e.inc) := rfl
@[simp] theorem Sec.process_inc (N : Numerics X) (P : Params X) (e : Sec X) : (e.process N P).2.inc = e.inc := rfl
@[simp] theorem Lfo.process_phase (N : Numerics X) (sr : SampleRate) (P : Params X) (l : Lfo X) :
    (l.process N sr P).2.phase = lfoNextPhase N sr P l.phase := by
  unfold Lfo.process; dsimp only; split <;> rfl
@[simp] theorem Chorus.process_w (N : Numerics X) (sr : SampleRate) (P : Params X) (x : Frame X) (c : Chorus X) :
    (c.process N sr P x).2.w = advancePos chorusLen c.w := rfl
@[simp] theorem Delay.process_w (N : Numerics X) (sr : SampleRate) (P : Params X) (x : Frame X) (d : Delay X) :
    (d.process N sr P x).2.w = advancePos (delayLen sr) d.w := rfl

end

end Sys2Proof.Machine
end

