-- ==== Sys2Proof/Laws/Commands.lean ====
section
/-! SUPPORT. What each command of the machine answers, written as the state it leads to, so that no proof unfolds a
command; and what every SETP can do: write the parameter file and nothing else. -/

namespace Sys2Proof.Machine

theorem exec_nop (s : State) : exec .nop s = .next s := rfl

theorem exec_lfoSync (s : State) : exec .lfoSync s = .next { s with lfo := s.lfo.sync } := rfl

theorem exec_noteOn (note : Nat) (x : BitVec 32) (s : State) : exec (.noteOn note x) s =
    .next { s with voices := allocate s.num s.cfg.sr note (clamp (operandQ x) 0 1) s.voices } := rfl

theorem exec_noteOff (note : Nat) (s : State) : exec (.noteOff note) s = .next { s with
    voices := s.voices.map fun v => if voiceActive v && v.note = note then v.noteOff else v } := rfl

theorem exec_allNotesOff (s : State) : exec .allNotesOff s = .next { s with
    voices := s.voices.map fun v => if voiceActive v then v.noteOff else v } := rfl

theorem exec_loadPreset_none {index : Nat} {s : State} (h : s.cfg.presets[index]? = none) :
    exec (.loadPreset index) s = .next s := by
  show Host.Outcome.next (State.mk (cmdLoadPreset index s.num s.toStateOf)) = _
  simp only [cmdLoadPreset, h]

theorem exec_loadPreset_some {index : Nat} {s : State} {r : Preset Scalar} (h : s.cfg.presets[index]? = some r) :
    exec (.loadPreset index) s = .next { s with
      params := Params.applyPreset s.num s.cfg.sr r s.params, presetIndex := some index } := by
  show Host.Outcome.next (State.mk (cmdLoadPreset index s.num s.toStateOf)) = _
  simp only [cmdLoadPreset, h]

theorem exec_fxClear (mask : BitVec 3) (s : State) : exec (.fxClear mask) s = .next { s with
    chorus := if maskChorus mask then s.chorus.clear else s.chorus
    delay := if maskDelay mask then s.delay.clear else s.delay
    reverb := if maskReverb mask then s.reverb.clear else s.reverb } := rfl

theorem exec_tick (s : State) :
    exec .tick s = .next { (tick s.num s.toStateOf).2.output (tick s.num s.toStateOf).1 with } := rfl

/-- A SETP writes the parameter file and nothing else (R265). -/
theorem exec_setp {i : Instr} (h : opField (encode i) = 0x06) (s : State) :
    ∃ P, exec i s = .next { s with params := P } := by
  cases i <;> simp only [encode, opField_packWord] at h <;> first | exact absurd h (by decide) | exact ⟨_, rfl⟩

end Sys2Proof.Machine
end

