-- ==== Sys2Proof/Laws/Ops.lean ====
section
/-! SUPPORT. What the shared operations can do: the clamp, the rounded operators, the wrap of a phase, the
crossfade, the draw, the constants, the ring indices. -/

namespace Sys2Proof.Machine

section

variable {X : Type} [Field X] [LinearOrder X]

/-! ## `clamp` and `absolute` -/

omit [Field X] in
theorem clamp_mem {x lo hi : X} (h : lo ≤ hi) : lo ≤ clamp x lo hi ∧ clamp x lo hi ≤ hi := by
  unfold clamp
  split_ifs with h1 h2
  · exact ⟨le_rfl, h⟩
  · exact ⟨h, le_rfl⟩
  · exact ⟨not_lt.1 h1, not_lt.1 h2⟩

omit [Field X] in
theorem clamp_of_mem {x lo hi : X} (h1 : lo ≤ x) (h2 : x ≤ hi) : clamp x lo hi = x := by
  unfold clamp
  rw [if_neg (not_lt.2 h1), if_neg (not_lt.2 h2)]

omit [Field X] in
theorem clamp_of_lt {x lo hi : X} (h : x < lo) : clamp x lo hi = lo := if_pos h

omit [Field X] in
theorem clamp_of_gt {x lo hi : X} (h1 : lo ≤ hi) (h : hi < x) : clamp x lo hi = hi := by
  unfold clamp
  rw [if_neg (not_lt.2 (h1.trans h.le)), if_pos h]

omit [Field X] in
theorem clamp_clamp {x lo hi : X} (h : lo ≤ hi) : clamp (clamp x lo hi) lo hi = clamp x lo hi :=
  clamp_of_mem (clamp_mem h).1 (clamp_mem h).2

theorem absolute_eq_abs [IsStrictOrderedRing X] (x : X) : absolute x = |x| := by
  unfold absolute
  split_ifs with h
  · exact (abs_of_neg h).symm
  · exact (abs_of_nonneg (not_lt.1 h)).symm

end

end Sys2Proof.Machine

/-! ## The rounded operators -/

namespace Sys2Proof.Numerics

variable {X : Type} [Field X] [LinearOrder X] [FloorRing X] {N : Numerics X}

theorem Lawful.inT_add (h : N.Lawful) (x y : X) : N.inT (N.add x y) := h.rnd_rnd _
theorem Lawful.inT_sub (h : N.Lawful) (x y : X) : N.inT (N.sub x y) := h.rnd_rnd _
theorem Lawful.inT_mul (h : N.Lawful) (x y : X) : N.inT (N.mul x y) := h.rnd_rnd _
theorem Lawful.inT_div (h : N.Lawful) (x y : X) : N.inT (N.div x y) := h.rnd_rnd _

/-- The small integers are numbers of every lawful format. -/
theorem Lawful.rnd_int [IsStrictOrderedRing X] (h : N.Lawful) (n : Int) (h1 : -4 ≤ n) (h2 : n ≤ 20) :
    N.rnd (n : X) = n := by
  have := h.rnd_halves (2 * n) (by omega) (by omega)
  rwa [Int.cast_mul, Int.cast_ofNat, mul_div_cancel_left₀ _ (two_ne_zero (α := X))] at this

theorem Lawful.rnd_zero [IsStrictOrderedRing X] (h : N.Lawful) : N.rnd 0 = 0 := by
  simpa using h.rnd_int 0 (by omega) (by omega)

theorem Lawful.rnd_one [IsStrictOrderedRing X] (h : N.Lawful) : N.rnd 1 = 1 := by
  simpa using h.rnd_int 1 (by omega) (by omega)

theorem Lawful.rnd_neg_one [IsStrictOrderedRing X] (h : N.Lawful) : N.rnd (-1) = -1 := by
  simpa using h.rnd_int (-1) (by omega) (by omega)

theorem Lawful.rnd_nonneg [IsStrictOrderedRing X] (h : N.Lawful) {x : X} (hx : 0 ≤ x) : 0 ≤ N.rnd x :=
  h.rnd_zero ▸ h.rnd_mono _ _ hx

theorem Lawful.rnd_nonpos [IsStrictOrderedRing X] (h : N.Lawful) {x : X} (hx : x ≤ 0) : N.rnd x ≤ 0 :=
  h.rnd_zero ▸ h.rnd_mono _ _ hx

theorem Lawful.rnd_le_one [IsStrictOrderedRing X] (h : N.Lawful) {x : X} (hx : x ≤ 1) : N.rnd x ≤ 1 :=
  h.rnd_one ▸ h.rnd_mono _ _ hx

theorem Lawful.neg_one_le_rnd [IsStrictOrderedRing X] (h : N.Lawful) {x : X} (hx : -1 ≤ x) : -1 ≤ N.rnd x :=
  h.rnd_neg_one ▸ h.rnd_mono _ _ hx

/-! A format that does not round: each operator is the field's own. -/

theorem Exact.add (h : N.Exact) (x y : X) : N.add x y = x + y := h.rnd_eq _
theorem Exact.sub (h : N.Exact) (x y : X) : N.sub x y = x - y := h.rnd_eq _
theorem Exact.mul (h : N.Exact) (x y : X) : N.mul x y = x * y := h.rnd_eq _
theorem Exact.div (h : N.Exact) (x y : X) : N.div x y = x / y := h.rnd_eq _
theorem Exact.inT (h : N.Exact) (x : X) : N.inT x := h.rnd_eq _

end Sys2Proof.Numerics

namespace Sys2Proof.Machine

section

variable {X : Type} [Field X] [LinearOrder X] [FloorRing X]

/-! ## `floor`, `wrap1`, `crossfade`, `draw` -/

theorem floor_eq (x : X) : floor x = ⌊x⌋ := rfl

variable {N : Numerics X}

/-- A number of the format that is not negative wraps to its fractional part, exactly. -/
theorem wrap1_eq_fract (h : N.Lawful) {x : X} (hx : N.inT x) (h0 : 0 ≤ x) : wrap1 N x = Int.fract x :=
  h.rnd_fract x hx h0

theorem wrap1_exact (h : N.Exact) (x : X) : wrap1 N x = Int.fract x := h.rnd_eq _

variable [IsStrictOrderedRing X]

theorem wrap1_mem (h : N.Lawful) {x : X} (hx : N.inT x) (h0 : 0 ≤ x) : 0 ≤ wrap1 N x ∧ wrap1 N x < 1 := by
  rw [wrap1_eq_fract h hx h0]
  exact ⟨Int.fract_nonneg x, Int.fract_lt_one x⟩

theorem wrap1_of_mem (h : N.Lawful) {x : X} (hx : N.inT x) (h0 : 0 ≤ x) (h1 : x < 1) : wrap1 N x = x := by
  rw [wrap1_eq_fract h hx h0]
  exact Int.fract_eq_self.2 ⟨h0, h1⟩

/-- A phase advanced by an increment that is not negative is a phase again (R8, R111). -/
theorem advance_mem (h : N.Lawful) {x y : X} (hx : 0 ≤ x) (hy : 0 ≤ y) :
    0 ≤ wrap1 N (N.add x y) ∧ wrap1 N (N.add x y) < 1 :=
  wrap1_mem h (h.inT_add x y) (h.rnd_nonneg (add_nonneg hx hy))

/-- A crossfade at 0 is the dry signal, where that is a number of the format. -/
theorem crossfade_zero (h : N.Lawful) {dry : X} (hd : N.inT dry) (wet : X) : crossfade N 0 dry wet = dry := by
  have e : N.rnd dry = dry := hd
  simp [crossfade, Numerics.add, Numerics.mul, Numerics.sub, h.rnd_zero, h.rnd_one, e]

/-- A crossfade at 1 is the wet signal, where that is a number of the format. -/
theorem crossfade_one (h : N.Lawful) (dry : X) {wet : X} (hw : N.inT wet) : crossfade N 1 dry wet = wet := by
  have e : N.rnd wet = wet := hw
  simp [crossfade, Numerics.add, Numerics.mul, Numerics.sub, h.rnd_zero, e]

/-- A crossfade of silence with silence. -/
@[simp] theorem crossfade_zeros (h : N.Lawful) (mix : X) : crossfade N mix 0 0 = 0 := by
  simp [crossfade, Numerics.add, Numerics.mul, h.rnd_zero]

omit [IsStrictOrderedRing X] in
theorem draw_mem (h : N.Lawful) (g : Nat) : -1 ≤ (draw N g).1 ∧ (draw N g).1 < 1 := h.next_range g

end

/-! ## Constants -/

section

variable {X : Type} [Field X] [LinearOrder X] [IsStrictOrderedRing X]

theorem rate_pos (sr : SampleRate) : (0 : X) < rate sr := by cases sr <;> norm_num [rate, SampleRate.hz]

theorem rate_ge (sr : SampleRate) : (48000 : X) ≤ rate sr := by cases sr <;> norm_num [rate, SampleRate.hz]

end

theorem delayLen_eq (sr : SampleRate) : delayLen sr = 2 * sr.hz := by
  have h : (delayMaxS * rate sr : Scalar) = (((2 * sr.hz : Nat) : Int) : Rat) := by
    simp [delayMaxS, rate]
  unfold delayLen
  rw [h]
  show (⌊(((2 * sr.hz : Nat) : Int) : Rat)⌋).toNat = _
  rw [Int.floor_intCast, Int.toNat_natCast]

theorem delayLen_pos (sr : SampleRate) : 0 < delayLen sr := by
  rw [delayLen_eq]; cases sr <;> decide

/-! ## Ring indices -/

theorem ringIndex_lt {n : Nat} (h : 0 < n) (k : Int) : ringIndex n k < n := by
  unfold ringIndex
  have h1 := Int.emod_lt_of_pos k (Int.natCast_pos.2 h)
  have h0 := Int.emod_nonneg k (Int.natCast_ne_zero.2 (Nat.ne_of_gt h))
  omega

theorem ringIndex_of_lt {n k : Nat} (h : k < n) : ringIndex n (k : Int) = k := by
  unfold ringIndex
  rw [Int.emod_eq_of_lt (by omega) (by omega)]
  exact Int.toNat_natCast k

theorem ringIndex_natCast (n k : Nat) : ringIndex n (k : Int) = k % n := by
  unfold ringIndex
  rw [← Int.natCast_mod, Int.toNat_natCast]

theorem advancePos_lt {n : Nat} (h : 0 < n) (p : Nat) : advancePos n p < n := Nat.mod_lt _ h

end Sys2Proof.Machine
end

