-- ==== Sys2Proof/Laws/Memory.lean ====
section
/-! SUPPORT. The laws of a ring's contents: a write keeps the canonical form and the bound, a read after a write
to the same index gives the number written, and every other index reads as before. -/

namespace Sys2Proof.Machine

variable {X : Type} [Field X] [LinearOrder X]

/-! ## Lists of cells -/

theorem cellsWf_mono {lo lo' : Nat} (h : lo' ≤ lo) : ∀ {l : List (Nat × X)}, cellsWf lo l = true →
    cellsWf lo' l = true
  | [], _ => rfl
  | (k, v) :: rest, hw => by
    simp only [cellsWf, Bool.and_eq_true, decide_eq_true_eq] at hw ⊢
    exact ⟨⟨h.trans hw.1.1, hw.1.2⟩, hw.2⟩

theorem readCells_of_lt {a : Nat} : ∀ {lo : Nat} {l : List (Nat × X)}, cellsWf lo l = true → a < lo →
    readCells l a = 0
  | _, [], _, _ => rfl
  | lo, (k, v) :: rest, hw, ha => by
    simp only [cellsWf, Bool.and_eq_true, decide_eq_true_eq] at hw
    have hk := hw.1.1
    rw [readCells, if_neg (by omega)]
    exact readCells_of_lt hw.2 (by omega)

theorem cellsWf_writeCells (a : Nat) (v : X) : ∀ {lo : Nat} {l : List (Nat × X)}, lo ≤ a →
    cellsWf lo l = true → cellsWf lo (writeCells l a v) = true
  | lo, [], hlo, _ => by
    by_cases hv : v = 0 <;> simp [writeCells, cellsWf, hv, hlo]
  | lo, (k, u) :: rest, hlo, hw => by
    simp only [cellsWf, Bool.and_eq_true, decide_eq_true_eq] at hw
    obtain ⟨⟨hk, hu⟩, hr⟩ := hw
    rw [writeCells]
    split_ifs with h1 h2 h3 h4
    · simp [cellsWf, hk, hu, hr]
    · simp [cellsWf, hlo, h2, hu, hr, Nat.succ_le_of_lt h1]
    · exact cellsWf_mono (by omega) hr
    · subst h3; simp [cellsWf, hk, h4, hr]
    · simp [cellsWf, hk, hu, cellsWf_writeCells a v (by omega) hr]

theorem readCells_writeCells_same (a : Nat) (v : X) : ∀ {lo : Nat} {l : List (Nat × X)},
    cellsWf lo l = true → readCells (writeCells l a v) a = v
  | lo, [], _ => by by_cases hv : v = 0 <;> simp [writeCells, readCells, hv]
  | lo, (k, u) :: rest, hw => by
    simp only [cellsWf, Bool.and_eq_true, decide_eq_true_eq] at hw
    obtain ⟨⟨hk, hu⟩, hr⟩ := hw
    rw [writeCells]
    split_ifs with h1 h2 h3 h4
    · rw [h2, readCells, if_neg (by omega)]
      exact readCells_of_lt hr (by omega)
    · simp [readCells]
    · rw [h4]; exact readCells_of_lt hr (by omega)
    · simp [readCells]
    · rw [readCells, if_neg h3]; exact readCells_writeCells_same a v hr

theorem readCells_writeCells_other {a b : Nat} (v : X) (h : b ≠ a) : ∀ l : List (Nat × X),
    readCells (writeCells l a v) b = readCells l b
  | [] => by by_cases hv : v = 0 <;> simp [writeCells, readCells, hv, h]
  | (k, u) :: rest => by
    rw [writeCells]
    split_ifs with h1 h2 h3 h4
    · rfl
    · rw [readCells, if_neg h]
    · subst h3; simp [readCells, h]
    · subst h3; simp [readCells, h]
    · simp only [readCells, readCells_writeCells_other v h rest]

theorem mem_writeCells {a : Nat} {v : X} {c : Nat × X} : ∀ {l : List (Nat × X)},
    c ∈ writeCells l a v → c = (a, v) ∨ c ∈ l
  | [], h => by by_cases hv : v = 0 <;> simp_all [writeCells]
  | (k, u) :: rest, h => by
    rw [writeCells] at h
    split_ifs at h with h1 h2 h3 h4
    · exact .inr h
    · simpa using h
    · exact .inr (List.mem_cons_of_mem _ h)
    · rcases List.mem_cons.1 h with h | h
      · exact .inl h
      · exact .inr (List.mem_cons_of_mem _ h)
    · rcases List.mem_cons.1 h with h | h
      · exact .inr (h ▸ List.mem_cons_self)
      · rcases mem_writeCells h with h | h
        · exact .inl h
        · exact .inr (List.mem_cons_of_mem _ h)

/-! ## Memory -/

omit [LinearOrder X] in
@[simp] theorem Memory.empty_read (a : Nat) : (Memory.empty : Memory X).read a = 0 := rfl
@[simp] theorem Memory.empty_wf : (Memory.empty : Memory X).wf = true := rfl
omit [Field X] [LinearOrder X] in
@[simp] theorem Memory.empty_fits (n : Nat) : (Memory.empty : Memory X).fits n = true := rfl

@[simp] theorem Memory.empty_write_zero (a : Nat) : (Memory.empty : Memory X).write a 0 = Memory.empty := by
  simp [Memory.write, Memory.empty, writeCells]

theorem Memory.wf_write {m : Memory X} (h : m.wf = true) (a : Nat) (v : X) : (m.write a v).wf = true :=
  cellsWf_writeCells a v (Nat.zero_le a) h

theorem Memory.fits_write {m : Memory X} {n a : Nat} (h : m.fits n = true) (ha : a < n) (v : X) :
    (m.write a v).fits n = true := by
  simp only [Memory.fits, Memory.write, List.all_eq_true, decide_eq_true_eq] at h ⊢
  intro c hc
  rcases mem_writeCells hc with rfl | hc
  · exact ha
  · exact h c hc

theorem Memory.read_write_same {m : Memory X} (h : m.wf = true) (a : Nat) (v : X) :
    (m.write a v).read a = v := readCells_writeCells_same a v h

theorem Memory.read_write_other (m : Memory X) {a b : Nat} (h : b ≠ a) (v : X) :
    (m.write a v).read b = m.read b := readCells_writeCells_other v h m.cells

theorem cells_ext : ∀ {lo lo' : Nat} {l l' : List (Nat × X)}, cellsWf lo l = true → cellsWf lo' l' = true →
    (∀ a, readCells l a = readCells l' a) → l = l'
  | _, _, [], [], _, _, _ => rfl
  | _, _, [], (k, v) :: rest, _, hw, h => by
    simp only [cellsWf, Bool.and_eq_true, decide_eq_true_eq] at hw
    have := h k
    simp only [readCells, if_true] at this
    exact absurd this.symm hw.1.2
  | _, _, (k, v) :: rest, [], hw, _, h => by
    simp only [cellsWf, Bool.and_eq_true, decide_eq_true_eq] at hw
    have := h k
    simp only [readCells, if_true] at this
    exact absurd this hw.1.2
  | _, _, (k, v) :: rest, (k', v') :: rest', hw, hw', h => by
    simp only [cellsWf, Bool.and_eq_true, decide_eq_true_eq] at hw hw'
    obtain ⟨⟨-, hv⟩, hr⟩ := hw
    obtain ⟨⟨-, hv'⟩, hr'⟩ := hw'
    have hkk : k = k' := by
      rcases lt_trichotomy k k' with hlt | heq | hgt
      · have := h k
        rw [readCells, if_pos rfl, readCells, if_neg (by omega), readCells_of_lt hr' (by omega)] at this
        exact absurd this hv
      · exact heq
      · have := h k'
        rw [readCells, if_neg (by omega), readCells_of_lt hr (by omega), readCells, if_pos rfl] at this
        exact absurd this.symm hv'
    subst hkk
    have hvv : v = v' := by simpa [readCells] using h k
    subst hvv
    have : rest = rest' := cells_ext hr hr' fun a => by
      by_cases ha : a = k
      · subst ha
        rw [readCells_of_lt hr (by omega), readCells_of_lt hr' (by omega)]
      · simpa [readCells, ha] using h a
    rw [this]

/-- Two rings in the canonical form whose every element reads alike are the same data. -/
theorem Memory.ext_of_wf {m m' : Memory X} (hm : m.wf = true) (hm' : m'.wf = true)
    (h : ∀ a, m.read a = m'.read a) : m = m' := by
  obtain ⟨l⟩ := m
  obtain ⟨l'⟩ := m'
  exact congrArg Memory.mk (cells_ext hm hm' h)

/-! ## Ring accesses -/

omit [LinearOrder X] in
@[simp] theorem bufRead_empty (n : Nat) (k : Int) : bufRead n (Memory.empty : Memory X) k = 0 := rfl

@[simp] theorem bufWrite_empty_zero (n : Nat) (k : Int) : bufWrite n (Memory.empty : Memory X) k 0 = Memory.empty :=
  Memory.empty_write_zero _

theorem bufWrite_wf {n : Nat} {b : Memory X} (h : b.wf = true) (k : Int) (v : X) :
    (bufWrite n b k v).wf = true := Memory.wf_write h _ _

theorem bufWrite_fits {n : Nat} {b : Memory X} (hn : 0 < n) (h : b.fits n = true) (k : Int) (v : X) :
    (bufWrite n b k v).fits n = true := Memory.fits_write h (ringIndex_lt hn k) v

theorem bufWrite_read_other {n : Nat} (b : Memory X) {k : Int} {a : Nat} (h : a ≠ ringIndex n k) (v : X) :
    (bufWrite n b k v).read a = b.read a := Memory.read_write_other b h v

theorem bufWrite_read_same {n : Nat} {b : Memory X} (h : b.wf = true) (k : Int) (v : X) :
    (bufWrite n b k v).read (ringIndex n k) = v := Memory.read_write_same h _ v

@[simp] theorem fracRead_empty [IsStrictOrderedRing X] [FloorRing X] {N : Numerics X} (h : N.Lawful) (n w : Nat) (d : X) :
    fracRead N n Memory.empty w d = 0 := by
  simp [fracRead, Numerics.add, Numerics.mul, Numerics.sub, h.rnd_zero]

end Sys2Proof.Machine
end

