-- ==== Sys2Proof/Laws/PerInstr.lean ====
section
/-! SUPPORT. Statements about every command, one lemma per constructor. Family `TableRow`: the encoder's word
meets its row's mask and match (spec/30_encoding.md R96, R97). -/

namespace Sys2Proof.Laws.TableRow

/-- The encoder's word meets the row's mask and match. -/
def Statement (i : Instr) : Prop := encode i &&& tableMask i = tableMatch i

theorem nop : Statement .nop :=
  (and_opMask_eq_iff _ _).2 (opField_packWord _ _ _)

theorem tick : Statement .tick :=
  (and_opMask_eq_iff _ _).2 (opField_packWord _ _ _)

theorem noteOn (note : Nat) (velocity : BitVec 32) : Statement (.noteOn note velocity) :=
  (and_opMask_eq_iff _ _).2 (opField_packWord _ _ _)

theorem noteOff (note : Nat) : Statement (.noteOff note) :=
  (and_opMask_eq_iff _ _).2 (opField_packWord _ _ _)

theorem allNotesOff : Statement .allNotesOff :=
  (and_opMask_eq_iff _ _).2 (opField_packWord _ _ _)

theorem loadPreset (index : Nat) : Statement (.loadPreset index) :=
  (and_opMask_eq_iff _ _).2 (opField_packWord _ _ _)

theorem setpMixSine (val : BitVec 32) : Statement (.setpMixSine val) :=
  (and_idMask_eq_iff _ 0x06 _).2 ⟨opField_packWord _ _ _, idxField_packWord _ _ _⟩

theorem setpMixTri (val : BitVec 32) : Statement (.setpMixTri val) :=
  (and_idMask_eq_iff _ 0x06 _).2 ⟨opField_packWord _ _ _, idxField_packWord _ _ _⟩

theorem setpMixSaw (val : BitVec 32) : Statement (.setpMixSaw val) :=
  (and_idMask_eq_iff _ 0x06 _).2 ⟨opField_packWord _ _ _, idxField_packWord _ _ _⟩

theorem setpMixSquare (val : BitVec 32) : Statement (.setpMixSquare val) :=
  (and_idMask_eq_iff _ 0x06 _).2 ⟨opField_packWord _ _ _, idxField_packWord _ _ _⟩

theorem setpMixNoise (val : BitVec 32) : Statement (.setpMixNoise val) :=
  (and_idMask_eq_iff _ 0x06 _).2 ⟨opField_packWord _ _ _, idxField_packWord _ _ _⟩

theorem setpOscMix (val : BitVec 32) : Statement (.setpOscMix val) :=
  (and_idMask_eq_iff _ 0x06 _).2 ⟨opField_packWord _ _ _, idxField_packWord _ _ _⟩

theorem setpCutoff (val : BitVec 32) : Statement (.setpCutoff val) :=
  (and_idMask_eq_iff _ 0x06 _).2 ⟨opField_packWord _ _ _, idxField_packWord _ _ _⟩

theorem setpResonance (val : BitVec 32) : Statement (.setpResonance val) :=
  (and_idMask_eq_iff _ 0x06 _).2 ⟨opField_packWord _ _ _, idxField_packWord _ _ _⟩

theorem setpDrive (val : BitVec 32) : Statement (.setpDrive val) :=
  (and_idMask_eq_iff _ 0x06 _).2 ⟨opField_packWord _ _ _, idxField_packWord _ _ _⟩

theorem setpFilterMode (val : BitVec 32) : Statement (.setpFilterMode val) :=
  (and_idMask_eq_iff _ 0x06 _).2 ⟨opField_packWord _ _ _, idxField_packWord _ _ _⟩

theorem setpFilterType (val : BitVec 32) : Statement (.setpFilterType val) :=
  (and_idMask_eq_iff _ 0x06 _).2 ⟨opField_packWord _ _ _, idxField_packWord _ _ _⟩

theorem setpEnvDepth (val : BitVec 32) : Statement (.setpEnvDepth val) :=
  (and_idMask_eq_iff _ 0x06 _).2 ⟨opField_packWord _ _ _, idxField_packWord _ _ _⟩

theorem setpAmpAttack (val : BitVec 32) : Statement (.setpAmpAttack val) :=
  (and_idMask_eq_iff _ 0x06 _).2 ⟨opField_packWord _ _ _, idxField_packWord _ _ _⟩

theorem setpAmpDecay (val : BitVec 32) : Statement (.setpAmpDecay val) :=
  (and_idMask_eq_iff _ 0x06 _).2 ⟨opField_packWord _ _ _, idxField_packWord _ _ _⟩

theorem setpAmpSustain (val : BitVec 32) : Statement (.setpAmpSustain val) :=
  (and_idMask_eq_iff _ 0x06 _).2 ⟨opField_packWord _ _ _, idxField_packWord _ _ _⟩

theorem setpAmpRelease (val : BitVec 32) : Statement (.setpAmpRelease val) :=
  (and_idMask_eq_iff _ 0x06 _).2 ⟨opField_packWord _ _ _, idxField_packWord _ _ _⟩

theorem setpFltAttack (val : BitVec 32) : Statement (.setpFltAttack val) :=
  (and_idMask_eq_iff _ 0x06 _).2 ⟨opField_packWord _ _ _, idxField_packWord _ _ _⟩

theorem setpFltDecay (val : BitVec 32) : Statement (.setpFltDecay val) :=
  (and_idMask_eq_iff _ 0x06 _).2 ⟨opField_packWord _ _ _, idxField_packWord _ _ _⟩

theorem setpFltSustain (val : BitVec 32) : Statement (.setpFltSustain val) :=
  (and_idMask_eq_iff _ 0x06 _).2 ⟨opField_packWord _ _ _, idxField_packWord _ _ _⟩

theorem setpFltRelease (val : BitVec 32) : Statement (.setpFltRelease val) :=
  (and_idMask_eq_iff _ 0x06 _).2 ⟨opField_packWord _ _ _, idxField_packWord _ _ _⟩

theorem setpSecMode (val : BitVec 32) : Statement (.setpSecMode val) :=
  (and_idMask_eq_iff _ 0x06 _).2 ⟨opField_packWord _ _ _, idxField_packWord _ _ _⟩

theorem setpSecIndex (val : BitVec 32) : Statement (.setpSecIndex val) :=
  (and_idMask_eq_iff _ 0x06 _).2 ⟨opField_packWord _ _ _, idxField_packWord _ _ _⟩

theorem setpSecRatio (val : BitVec 32) : Statement (.setpSecRatio val) :=
  (and_idMask_eq_iff _ 0x06 _).2 ⟨opField_packWord _ _ _, idxField_packWord _ _ _⟩

theorem setpSecShape (val : BitVec 32) : Statement (.setpSecShape val) :=
  (and_idMask_eq_iff _ 0x06 _).2 ⟨opField_packWord _ _ _, idxField_packWord _ _ _⟩

theorem setpSecLevel (val : BitVec 32) : Statement (.setpSecLevel val) :=
  (and_idMask_eq_iff _ 0x06 _).2 ⟨opField_packWord _ _ _, idxField_packWord _ _ _⟩

theorem setpLfoRate (val : BitVec 32) : Statement (.setpLfoRate val) :=
  (and_idMask_eq_iff _ 0x06 _).2 ⟨opField_packWord _ _ _, idxField_packWord _ _ _⟩

theorem setpLfoRateNorm (val : BitVec 32) : Statement (.setpLfoRateNorm val) :=
  (and_idMask_eq_iff _ 0x06 _).2 ⟨opField_packWord _ _ _, idxField_packWord _ _ _⟩

theorem setpLfoShape (val : BitVec 32) : Statement (.setpLfoShape val) :=
  (and_idMask_eq_iff _ 0x06 _).2 ⟨opField_packWord _ _ _, idxField_packWord _ _ _⟩

theorem setpLfoDepth (val : BitVec 32) : Statement (.setpLfoDepth val) :=
  (and_idMask_eq_iff _ 0x06 _).2 ⟨opField_packWord _ _ _, idxField_packWord _ _ _⟩

theorem setpMasterVolume (val : BitVec 32) : Statement (.setpMasterVolume val) :=
  (and_idMask_eq_iff _ 0x06 _).2 ⟨opField_packWord _ _ _, idxField_packWord _ _ _⟩

theorem setpChorusRate (val : BitVec 32) : Statement (.setpChorusRate val) :=
  (and_idMask_eq_iff _ 0x06 _).2 ⟨opField_packWord _ _ _, idxField_packWord _ _ _⟩

theorem setpChorusDepth (val : BitVec 32) : Statement (.setpChorusDepth val) :=
  (and_idMask_eq_iff _ 0x06 _).2 ⟨opField_packWord _ _ _, idxField_packWord _ _ _⟩

theorem setpChorusMix (val : BitVec 32) : Statement (.setpChorusMix val) :=
  (and_idMask_eq_iff _ 0x06 _).2 ⟨opField_packWord _ _ _, idxField_packWord _ _ _⟩

theorem setpDelayTime (val : BitVec 32) : Statement (.setpDelayTime val) :=
  (and_idMask_eq_iff _ 0x06 _).2 ⟨opField_packWord _ _ _, idxField_packWord _ _ _⟩

theorem setpDelayFeedback (val : BitVec 32) : Statement (.setpDelayFeedback val) :=
  (and_idMask_eq_iff _ 0x06 _).2 ⟨opField_packWord _ _ _, idxField_packWord _ _ _⟩

theorem setpDelayMix (val : BitVec 32) : Statement (.setpDelayMix val) :=
  (and_idMask_eq_iff _ 0x06 _).2 ⟨opField_packWord _ _ _, idxField_packWord _ _ _⟩

theorem setpReverbDecay (val : BitVec 32) : Statement (.setpReverbDecay val) :=
  (and_idMask_eq_iff _ 0x06 _).2 ⟨opField_packWord _ _ _, idxField_packWord _ _ _⟩

theorem setpReverbMix (val : BitVec 32) : Statement (.setpReverbMix val) :=
  (and_idMask_eq_iff _ 0x06 _).2 ⟨opField_packWord _ _ _, idxField_packWord _ _ _⟩

theorem lfoSync : Statement .lfoSync :=
  (and_opMask_eq_iff _ _).2 (opField_packWord _ _ _)

theorem fxClear (mask : BitVec 3) : Statement (.fxClear mask) :=
  (and_opMask_eq_iff _ _).2 (opField_packWord _ _ _)

end Sys2Proof.Laws.TableRow
end

