-- ==== Sys2Proof/Laws/Reference.lean ====
section
/-! SUPPORT. The reference instance of R9 (the reals, `rnd = id`, the mathematical functions, the circle constant
itself) meets every law that a claim may use of an exact format; every format of the machine has the operators of R9
for a `rnd` on the reals; and the machine is the one of Machine/Reference.lean at the rationals. -/

namespace Sys2Proof

@[simp] theorem Numerics.reference_pi (next : Nat → Nat × ℝ) : (Numerics.reference next).pi = Real.pi := by
  simp [reference, pi]

theorem Numerics.reference_exact {next : Nat → Nat × ℝ} (h : ∀ g, -1 ≤ (next g).2 ∧ (next g).2 < 1) :
    (Numerics.reference next).Exact where
  rnd_rnd := fun _ => rfl
  rnd_mono := fun _ _ h => h
  rnd_halves := fun _ _ _ => rfl
  rnd_neg := fun _ _ _ _ => rfl
  rnd_fract := fun _ _ _ => rfl
  rnd_complement := by intro x _ _ _; simp [reference]
  sin_range := fun x => ⟨Real.neg_one_le_sin x, Real.sin_le_one x⟩
  exp_range := fun x hx => ⟨(Real.exp_pos x).le, Real.exp_le_one_iff.2 hx⟩
  exp2_nonneg := fun x => (Real.rpow_pos_of_pos two_pos x).le
  next_range := h
  rnd_eq := fun _ => rfl
  timesPi_eq := by intro x; rw [reference_pi]; rfl
  pi_bounds := by
    have h1 := Real.pi_gt_d4
    have h2 := Real.pi_lt_d4
    rw [reference_pi]; constructor <;> linarith
  ln500_bounds := by
    have he := Real.exp_one_lt_d9
    have he' := Real.exp_one_gt_d9
    have e : ∀ n : Nat, Real.exp n = Real.exp 1 ^ n := fun n => by rw [← Real.exp_nat_mul, mul_one]
    constructor
    · show (6 : ℝ) < Real.log 500
      rw [Real.lt_log_iff_exp_lt (by norm_num)]
      calc Real.exp 6 = Real.exp 1 ^ 6 := by exact_mod_cast e 6
        _ ≤ (272 / 100 : ℝ) ^ 6 := pow_le_pow_left₀ (Real.exp_pos 1).le (by linarith) 6
        _ < 500 := by norm_num
    · show Real.log 500 < 7
      rw [Real.log_lt_iff_lt_exp (by norm_num)]
      calc (500 : ℝ) < (271 / 100 : ℝ) ^ 7 := by norm_num
        _ ≤ Real.exp 1 ^ 7 := pow_le_pow_left₀ (by norm_num) (by linarith) 7
        _ = Real.exp 7 := by exact_mod_cast (e 7).symm
  sin_zero := Real.sin_zero
  sin_sixth := by rw [reference_pi]; exact Real.sin_pi_div_six
  sin_quarter := by rw [reference_pi]; exact Real.sin_pi_div_two
  sin_half := by rw [reference_pi]; exact Real.sin_pi
  sin_three_quarters := by
    rw [reference_pi]
    show Real.sin (3 * Real.pi / 2) = -1
    rw [show 3 * Real.pi / 2 = Real.pi / 2 + Real.pi by ring, Real.sin_add_pi, Real.sin_pi_div_two]
  sin_pos := fun x h0 h1 => Real.sin_pos_of_pos_of_lt_pi h0 (reference_pi next ▸ h1)
  exp_zero := Real.exp_zero
  exp_pos := Real.exp_pos
  exp_lt_one := fun x hx => (Real.exp_lt_exp.2 hx).trans_eq Real.exp_zero
  exp_mono := fun x y h => Real.exp_le_exp.2 h
  exp_ln500 := Real.exp_log (by norm_num)
  exp2_zero := Real.rpow_zero 2
  exp2_pos := fun x => Real.rpow_pos_of_pos two_pos x
  exp2_add_one := by
    intro x
    show (2 : ℝ) ^ (x + 1) = 2 * (2 : ℝ) ^ x
    rw [Real.rpow_add two_pos, Real.rpow_one, mul_comm]
  exp2_mono := fun x y h => Real.rpow_le_rpow_of_exponent_le one_le_two h
  tan_pos := fun x h0 h1 => Real.tan_pos_of_pos_of_lt_pi_div_two h0 (reference_pi next ▸ h1)
  tan_eighth_turn := by rw [reference_pi]; exact Real.tan_pi_div_four

/-- A format on the rationals that does not round has R9's operators too: an `R : ℝ → T` that fixes `T`, and whose
value at `π × x` is the format's. -/
theorem Numerics.Exact.rounding {N : Numerics Scalar} (h : N.Exact) :
    ∃ R : ℝ → Scalar, (∀ x : Scalar, N.rnd x = R x) ∧ ∀ x : Scalar, N.timesPi x = R (Real.pi * x) := by
  classical
  let R : ℝ → Scalar := fun r => if q : ∃ x : Scalar, r = x then q.choose else
    if q : ∃ x : Scalar, r = Real.pi * x then N.timesPi q.choose else 0
  have fixed : ∀ x : Scalar, R x = x := fun x => by
    have q : ∃ y : Scalar, (x : ℝ) = y := ⟨x, rfl⟩
    simp only [R, dif_pos q]
    exact_mod_cast q.choose_spec.symm
  refine ⟨R, fun x => (h.rnd_eq x).trans (fixed x).symm, fun x => ?_⟩
  by_cases hx : x = 0
  · have := fixed 0
    rw [Rat.cast_zero] at this
    rw [hx, Rat.cast_zero, mul_zero, this, h.timesPi_eq, mul_zero]
  · have hx' : (x : ℝ) ≠ 0 := by exact_mod_cast hx
    have n : ¬∃ y : Scalar, Real.pi * (x : ℝ) = y := fun ⟨y, hy⟩ =>
      irrational_pi ⟨y / x, by push_cast; rw [← hy]; field_simp⟩
    have q : ∃ y : Scalar, Real.pi * (x : ℝ) = Real.pi * y := ⟨x, rfl⟩
    simp only [R, dif_neg n, dif_pos q]
    congr 1
    exact_mod_cast mul_left_cancel₀ Real.pi_ne_zero q.choose_spec

/-- The product with π of a format that does not round: within 10^−20 of the real product, relative to the factor. -/
theorem Config.timesPi_close (x : Scalar) (hx : x ≠ 0) :
    |((Config.num .exact).timesPi x : ℝ) - Real.pi * x| < |(x : ℝ)| / 10 ^ 20 := by
  rw [Config.num_exact.timesPi_eq x]
  push_cast
  rw [← sub_mul, abs_mul, mul_comm, div_eq_mul_one_div]
  exact mul_lt_mul_of_pos_left Config.num_closeConstants.pi_close (abs_pos.2 (by exact_mod_cast hx))

namespace Machine

/-- A command of the machine is the command of Machine/Reference.lean under the machine's number format. -/
theorem exec_eq_command (i : Instr) (s : State) : exec i s = .next ⟨command i s.num s.toStateOf⟩ := by
  cases i <;> rfl

/-- A step of the machine is the step of Machine/Reference.lean at the rationals. -/
theorem step_eq_step (s : State) : step s = .next ⟨s.toStateOf.step Config.num⟩ := by
  unfold step StateOf.step
  split
  · rename_i h; simp only [h]
  · rename_i h; simp only [h]
  · rename_i w rest h
    simp only [h]
    cases hd : decode w with
    | ok i => simp only [exec_eq_command]; rfl
    | error e => rfl

end Machine

end Sys2Proof
end

