-- ==== Sys2Proof/Laws/VoiceManager.lean ====
section
/-! SUPPORT. What the voice manager's shared operations can do: the allocator's choice, the update of one slot,
the sum over the active voices. -/

namespace Sys2Proof.Machine

variable {X : Type}

theorem voiceActive_iff (v : Voice X) : voiceActive v = true ↔ v.active = true ∧ v.aenv.stage ≠ .idle := by
  simp [voiceActive, envActive]

/-- The allocator's choice: the least index of a voice that is not active. -/
theorem freeSlot_eq_some {i : Nat} : ∀ {vs : List (Voice X)}, freeSlot vs = some i ↔
    (∃ v, vs[i]? = some v ∧ voiceActive v = false) ∧ ∀ j, j < i → ∀ u, vs[j]? = some u → voiceActive u = true
  | [] => by simp [freeSlot]
  | v :: vs => by
    cases hv : voiceActive v
    · cases i with
      | zero => simp [freeSlot, hv]
      | succ i =>
        simp only [freeSlot, hv, Bool.false_eq_true, if_false, Option.some.injEq, List.getElem?_cons_succ]
        constructor
        · omega
        · rintro ⟨-, h⟩
          have := h 0 (Nat.succ_pos i) v rfl
          simp [hv] at this
    · cases i with
      | zero => simp [freeSlot, hv]
      | succ i =>
        simp only [freeSlot, hv, if_true, Option.map_eq_some_iff, Nat.add_right_cancel_iff, exists_eq_right,
          List.getElem?_cons_succ]
        rw [freeSlot_eq_some (vs := vs)]
        refine and_congr_right fun _ => ⟨fun h j hj u hu => ?_, fun h j hj u hu => ?_⟩
        · cases j with
          | zero => simp only [List.getElem?_cons_zero, Option.some.injEq] at hu; rw [← hu]; exact hv
          | succ j => exact h j (by omega) u (by simpa using hu)
        · exact h (j + 1) (by omega) u (by simpa using hu)

theorem freeSlot_eq_none : ∀ {vs : List (Voice X)}, freeSlot vs = none ↔ ∀ v ∈ vs, voiceActive v = true
  | [] => by simp [freeSlot]
  | v :: vs => by
    cases hv : voiceActive v
    · simp [freeSlot, hv]
    · simp [freeSlot, hv, freeSlot_eq_none (vs := vs)]

theorem updateVoice_eq_set {f : Voice X → Voice X} {v : Voice X} : ∀ {i : Nat} {vs : List (Voice X)}, vs[i]? = some v →
    updateVoice f i vs = vs.set i (f v)
  | _, [], h => by simp at h
  | 0, u :: vs, h => by
    simp only [List.getElem?_cons_zero, Option.some.injEq] at h
    simp [updateVoice, h]
  | i + 1, u :: vs, h => by
    simp only [List.getElem?_cons_succ] at h
    simp [updateVoice, updateVoice_eq_set h]

@[simp] theorem updateVoice_length (f : Voice X → Voice X) : ∀ (i : Nat) (vs : List (Voice X)),
    (updateVoice f i vs).length = vs.length
  | _, [] => by simp [updateVoice]
  | 0, _ :: _ => by simp [updateVoice]
  | i + 1, _ :: vs => by simp [updateVoice, updateVoice_length f i vs]

/-- Every voice after an update is one of the old ones or `f` of one. -/
theorem mem_updateVoice {f : Voice X → Voice X} {u : Voice X} : ∀ {i : Nat} {vs : List (Voice X)}, u ∈ updateVoice f i vs →
    u ∈ vs ∨ ∃ v ∈ vs, u = f v
  | _, [], h => by simp [updateVoice] at h
  | 0, v :: vs, h => by
    rcases List.mem_cons.1 h with rfl | h
    · exact .inr ⟨v, List.mem_cons_self, rfl⟩
    · exact .inl (List.mem_cons_of_mem _ h)
  | i + 1, v :: vs, h => by
    rcases List.mem_cons.1 h with rfl | h
    · exact .inl List.mem_cons_self
    · rcases mem_updateVoice h with h | ⟨w, hw, rfl⟩
      · exact .inl (List.mem_cons_of_mem _ h)
      · exact .inr ⟨w, List.mem_cons_of_mem _ hw, rfl⟩

variable [Field X]

@[simp] theorem voiceActive_kill (v : Voice X) : voiceActive v.kill = false := rfl

@[simp] theorem voiceActive_noteOn (N : Numerics X) (sr : SampleRate) (n : Nat) (x : X) (v : Voice X) :
    voiceActive (v.noteOn N sr n x) = true := rfl

@[simp] theorem allocate_length (N : Numerics X) (sr : SampleRate) (n : Nat) (x : X) (vs : List (Voice X)) :
    (allocate N sr n x vs).length = vs.length := by
  unfold allocate; split <;> simp

/-- Every voice after a note-on is one of the old ones, or the note started in one of them or in one killed. -/
theorem mem_allocate {N : Numerics X} {sr : SampleRate} {n : Nat} {x : X} {vs : List (Voice X)} {u : Voice X}
    (h : u ∈ allocate N sr n x vs) :
    u ∈ vs ∨ ∃ v ∈ vs, u = v.noteOn N sr n x ∨ u = v.kill.noteOn N sr n x := by
  unfold allocate at h
  split at h <;> rcases mem_updateVoice h with h | ⟨v, hv, h⟩
  · exact .inl h
  · exact .inr ⟨v, hv, .inl h⟩
  · exact .inl h
  · exact .inr ⟨v, hv, .inr h⟩

variable [LinearOrder X] [FloorRing X]

/-- The sum over the voices: the samples of the active ones added one after another to the start value; every
voice that is not active is kept. -/
theorem sumVoices_eq (N : Numerics X) (cfg : Cfg X) (P : Params X) (m : X) : ∀ (acc : X) (vs : List (Voice X)),
    sumVoices N cfg P m acc vs =
      ((vs.filter voiceActive).foldl (fun acc v => N.add acc (v.process N cfg P m).1) acc,
       vs.map fun v => if voiceActive v then (v.process N cfg P m).2 else v)
  | acc, [] => by simp [sumVoices]
  | acc, v :: vs => by
    cases hv : voiceActive v <;> simp [sumVoices, hv, sumVoices_eq N cfg P m _ vs]

end Sys2Proof.Machine
end

