-- ==== Sys2Proof/Tests/Slice0.lean ====
section
/-! SUPPORT. The model's own tests. Every expected value is the spec's: the worked examples of the rules and the
vectors T1 to T53 and P5 of spec/95_test_vectors.md. The witnesses show that the hypotheses of the statements can
be met. -/

namespace Sys2Proof.Tests

open Sys2Proof.Machine

set_option Elab.async false

/-! ## Well-formedness: each check refuses an ill-formed term -/

theorem test_wf_note_on : (Instr.noteOn 128 0).wellFormed = false := by decide
theorem test_wf_note_off : (Instr.noteOff 128).wellFormed = false := by decide
theorem test_wf_load_preset : (Instr.loadPreset 256).wellFormed = false := by decide
theorem test_wf_bounds : (Instr.noteOn 127 0).wellFormed = true ∧ (Instr.noteOff 127).wellFormed = true
    ∧ (Instr.loadPreset 255).wellFormed = true := by decide

/-! ## Decoding: one word written out from the encoding for every constructor -/

theorem test_decode_commands :
    decode 0x0000000000000000 = .ok .nop
    ∧ decode 0x0100000000000000 = .ok .tick
    ∧ decode 0x0245000000010000 = .ok (.noteOn 69 0x00010000)
    ∧ decode 0x0345000000000000 = .ok (.noteOff 69)
    ∧ decode 0x0400000000000000 = .ok .allNotesOff
    ∧ decode 0x0503000000000000 = .ok (.loadPreset 3)
    ∧ decode 0x0700000000000000 = .ok .lfoSync
    ∧ decode 0x0805000000000000 = .ok (.fxClear 0b101) := by decide

theorem test_decode_setp_a :
    decode 0x0600000000008000 = .ok (.setpMixSine 0x00008000)
    ∧ decode 0x0601000000020000 = .ok (.setpMixTri 0x00020000)
    ∧ decode 0x0602000000010000 = .ok (.setpMixSaw 0x00010000)
    ∧ decode 0x06030000FFFFC000 = .ok (.setpMixSquare 0xFFFFC000)
    ∧ decode 0x0604000000002000 = .ok (.setpMixNoise 0x00002000)
    ∧ decode 0x0605000000008000 = .ok (.setpOscMix 0x00008000)
    ∧ decode 0x0608000003E80000 = .ok (.setpCutoff 0x03E80000)
    ∧ decode 0x0609000000010000 = .ok (.setpResonance 0x00010000)
    ∧ decode 0x060A00000000C000 = .ok (.setpDrive 0x0000C000)
    ∧ decode 0x060B000000000002 = .ok (.setpFilterMode 0x00000002)
    ∧ decode 0x060C000000000001 = .ok (.setpFilterType 0x00000001)
    ∧ decode 0x060D000000008000 = .ok (.setpEnvDepth 0x00008000) := by decide

theorem test_decode_setp_b :
    decode 0x061000000000028F = .ok (.setpAmpAttack 0x0000028F)
    ∧ decode 0x061100000000199A = .ok (.setpAmpDecay 0x0000199A)
    ∧ decode 0x061200000000B333 = .ok (.setpAmpSustain 0x0000B333)
    ∧ decode 0x0613000000004CCD = .ok (.setpAmpRelease 0x00004CCD)
    ∧ decode 0x0614000000000000 = .ok (.setpFltAttack 0x00000000)
    ∧ decode 0x0615000000140000 = .ok (.setpFltDecay 0x00140000)
    ∧ decode 0x0616000000018000 = .ok (.setpFltSustain 0x00018000)
    ∧ decode 0x0617000000028000 = .ok (.setpFltRelease 0x00028000)
    ∧ decode 0x0618000000000007 = .ok (.setpSecMode 0x00000007)
    ∧ decode 0x0619000000008000 = .ok (.setpSecIndex 0x00008000)
    ∧ decode 0x061A000000010000 = .ok (.setpSecRatio 0x00010000)
    ∧ decode 0x061B000000004000 = .ok (.setpSecShape 0x00004000)
    ∧ decode 0x061C000000008000 = .ok (.setpSecLevel 0x00008000) := by decide

theorem test_decode_setp_c :
    decode 0x0620000000000042 = .ok (.setpLfoRate 0x00000042)
    ∧ decode 0x0621000000008000 = .ok (.setpLfoRateNorm 0x00008000)
    ∧ decode 0x06220000FFFFFFFF = .ok (.setpLfoShape 0xFFFFFFFF)
    ∧ decode 0x0623000000004000 = .ok (.setpLfoDepth 0x00004000)
    ∧ decode 0x062800000000CCCD = .ok (.setpMasterVolume 0x0000CCCD)
    ∧ decode 0x0630000000008000 = .ok (.setpChorusRate 0x00008000)
    ∧ decode 0x0631000000008000 = .ok (.setpChorusDepth 0x00008000)
    ∧ decode 0x0632000000008000 = .ok (.setpChorusMix 0x00008000)
    ∧ decode 0x0638000000030000 = .ok (.setpDelayTime 0x00030000)
    ∧ decode 0x063900000000FD71 = .ok (.setpDelayFeedback 0x0000FD71)
    ∧ decode 0x063A000000004CCD = .ok (.setpDelayMix 0x00004CCD)
    ∧ decode 0x0640000000010000 = .ok (.setpReverbDecay 0x00010000)
    ∧ decode 0x0641000000004000 = .ok (.setpReverbMix 0x00004000) := by decide

/-- T2, T4, T9, T21: ignored bits. -/
theorem test_decode_ignored_bits :
    decode 0x0000FFFFFFFFFFFF = .ok .nop ∧ decode 0x02C5ABCD00010000 = .ok (.noteOn 69 0x00010000)
    ∧ decode 0x03C5FFFFFFFFFFFF = .ok (.noteOff 69) ∧ decode 0x08F8000000000000 = .ok (.fxClear 0) := by decide

/-- T10 to T13: reserved encodings, refused by name. -/
theorem test_decode_reserved :
    decode 0x0900000000000000 = .error (.opcode 0x09) ∧ decode 0xFF12345678ABCDEF = .error (.opcode 0xFF)
    ∧ decode 0x0607000000010000 = .error (.paramId 0x07)
    ∧ decode 0x06FF0000FFFFFFFF = .error (.paramId 0xFF) := by decide

theorem test_decode_table_word : decodeTableWord 64 0x0245000000010000 = some (.noteOn 69 0x00010000)
    ∧ decodeTableWord 64 0x0900000000000000 = none := by decide

/-- R67: byte 0 is bits 7:0. -/
theorem test_bytes : bytesOfWord 0x0245000000010000 = [0x00, 0x00, 0x01, 0x00, 0x00, 0x00, 0x45, 0x02]
    ∧ wordOfBytes [0x00, 0x00, 0x01, 0x00, 0x00, 0x00, 0x45, 0x02] = some (0x0245000000010000, []) := by decide

/-- R93: 0.7 is sent as 0x0000B333. -/
theorem test_encode_q : encodeQ (7 / 10) = 0x0000B333 ∧ encodeQ 40000 = 0x7FFFFFFF
    ∧ operandQ 0x0000B333 = (45875 / 65536 : Scalar) := by decide +kernel

/-- R103. -/
theorem test_pseudo : Pseudo.expand defaultBlock .clearall = [.fxClear 7]
    ∧ (Pseudo.expand defaultBlock .block).length = 512 ∧ mnemonicOfAlias "sync" = some "LFO_SYNC" := by decide +kernel

/-! ## One step on a small state -/

/-- The state after one step that fetches the word `w`. -/
def after (s : State) (w : Nat) : State :=
  match step (s.withFetchWord 64 w) with
  | .next t => t
  | _ => s

/-- The registers of the reference reset. -/
def refParams : Params Scalar := Params.reference

/-- Voice `i` after the reference reset. -/
def idle (i : Nat) : Voice Scalar := Voice.reset Cfg.reference i

/-- A voice sounding `note` at level 0.7. -/
def sounding (note : Nat) : Voice Scalar :=
  { idle 0 with active := true, note := note, vel := 1, aenv := ⟨.sustain, 7 / 10⟩,
                                     fenv := ⟨.decay, 9 / 10⟩ }

/-- The reset state with the given voices. -/
def withVoices (vs : List (Voice Scalar)) : State := { State.reset with voices := vs }

/-- A ring that holds 1 at index 5. -/
def marked : Memory Scalar := Memory.empty.write 5 1

theorem test_mixSine : (after State.reset 0x0600000000008000).params.mixSine = 1 / 2 := by decide +kernel
theorem test_mixTri : (after State.reset 0x0601000000020000).params.mixTri = 1 := by decide +kernel
theorem test_mixSaw : (after State.reset 0x0602000000010000).params.mixSaw = 1 := by decide +kernel
theorem test_mixSquare : (after State.reset 0x06030000FFFFC000).params.mixSquare = 0 := by decide +kernel
theorem test_mixNoise : (after State.reset 0x0604000000002000).params.mixNoise = 1 / 8 := by decide +kernel
theorem test_oscMix : (after State.reset 0x0605000000008000).params.oscMix = 1 / 2 := by decide +kernel
theorem test_cutoff : (after State.reset 0x0608000003E80000).params.cutoff = 1000 := by decide +kernel
theorem test_resonance : (after State.reset 0x0609000000010000).params.resonance = 99 / 100 := by decide +kernel
theorem test_drive : (after State.reset 0x060A00000000C000).params.drive = 3 / 4 := by decide +kernel
theorem test_filterMode : (after State.reset 0x060B000000000002).params.filterMode = .bp := by decide +kernel
theorem test_filterType : (after State.reset 0x060C000000000001).params.filterType = .ladder := by decide +kernel
theorem test_envDepth : (after State.reset 0x060D000000008000).params.envDepth = 1 / 2 := by decide +kernel
theorem test_ampAttack : (after State.reset 0x061000000000028F).params.ampAttack = 655 / 65536 := by decide +kernel
theorem test_ampDecay : (after State.reset 0x061100000000199A).params.ampDecay = 6554 / 65536 := by decide +kernel
theorem test_ampSustain : (after State.reset 0x061200000000B333).params.ampSustain = 45875 / 65536 := by decide +kernel
theorem test_ampRelease : (after State.reset 0x0613000000004CCD).params.ampRelease = 19661 / 65536 := by decide +kernel
theorem test_fltAttack : (after State.reset 0x0614000000000000).params.fltAttack = 1 / 1000 := by decide +kernel
theorem test_fltDecay : (after State.reset 0x0615000000140000).params.fltDecay = 10 := by decide +kernel
theorem test_fltSustain : (after State.reset 0x0616000000018000).params.fltSustain = 1 := by decide +kernel
theorem test_fltRelease : (after State.reset 0x0617000000028000).params.fltRelease = 5 / 2 := by decide +kernel
theorem test_secMode : (after State.reset 0x0618000000000007).params.secMode = .noise := by decide +kernel
theorem test_secIndex : (after State.reset 0x0619000000008000).params.secIndex = 1 / 2 := by decide +kernel
theorem test_secRatio : (after State.reset 0x061A000000010000).params.secRatio = 1 := by decide +kernel
theorem test_secShape : (after State.reset 0x061B000000004000).params.secShape = 1 / 4 := by decide +kernel
theorem test_secLevel : (after State.reset 0x061C000000008000).params.secLevel = 1 / 2 := by decide +kernel
theorem test_lfoRate : (after State.reset 0x0620000000000042).params.lfoRate = 1 / 100 := by decide +kernel
theorem test_lfoShape : (after State.reset 0x06220000FFFFFFFF).params.lfoShape = .sampleHold := by decide +kernel
theorem test_lfoDepth : (after State.reset 0x0623000000004000).params.lfoDepth = 1 / 4 := by decide +kernel
theorem test_masterVolume : (after State.reset 0x062800000000CCCD).params.masterVolume = 52429 / 65536 := by decide +kernel
theorem test_chorusRate : (after State.reset 0x0630000000008000).params.chorusRate = 1 / 2 := by decide +kernel
theorem test_chorusDepth : (after State.reset 0x0631000000008000).params.chorusDepth = 1 / 2 := by decide +kernel
theorem test_chorusMix : (after State.reset 0x0632000000008000).params.chorusMix = 1 / 2 := by decide +kernel
theorem test_delayTime : (after State.reset 0x0638000000030000).params.delayTime = 2 := by decide +kernel
theorem test_delayFeedback : (after State.reset 0x063900000000FD71).params.delayFeedback = 95 / 100 := by decide +kernel
theorem test_delayMix : (after State.reset 0x063A000000004CCD).params.delayMix = 19661 / 65536 := by decide +kernel
theorem test_reverbDecay : (after State.reset 0x0640000000010000).params.reverbDecay = 99 / 100 := by decide +kernel
theorem test_reverbMix : (after State.reset 0x0641000000004000).params.reverbMix = 1 / 4 := by decide +kernel

/-- T50: RESONANCE under the ladder; T18: CUTOFF at both filter types at 48 kHz. -/
theorem test_resonance_ladder :
    (after (after State.reset 0x060C000000000001) 0x0609000000010000).params.resonance = 1 := by decide +kernel
theorem test_cutoff_48k :
    let s := State.resetWith { Cfg.reference with sr := .hz48000 }
    (after s 0x0608000075300000).params.cutoff = 21600
    ∧ (after (after s 0x060C000000000001) 0x0608000075300000).params.cutoff = 10800
    ∧ (after (after s 0x0608000075300000) 0x060C000000000001).params.cutoff = 21600 := by decide +kernel
/-- T15: an enumeration operand is unsigned. -/
theorem test_filter_mode_clamped : (after State.reset 0x060B0000FFFFFFFF).params.filterMode = .notch := by
  decide +kernel
/-- T32: operands −1 and 7 of LFO_RATE_NORM store 0.1 and 50. -/
theorem test_lfo_rate_norm : (Params.setLfoRateNorm Numerics.witness (-1) refParams).lfoRate = 1 / 10
    ∧ (Params.setLfoRateNorm Numerics.witness 7 refParams).lfoRate = 50 := by decide +kernel

theorem test_nop : after State.reset 0x0000FFFFFFFFFFFF = State.reset := by decide +kernel
/-- T10: a reserved word changes nothing. -/
theorem test_reserved : after State.reset 0x0900000000000000 = State.reset := by decide +kernel

/-- T3, T6, T40: the first note takes slot 0; velocity −1 is 0. -/
theorem test_note_on : ((after State.reset 0x0245000000010000).voices.map fun v => (voiceActive v, v.note, v.vel))
    = [(true, 69, 1), (false, 0, 0), (false, 0, 0), (false, 0, 0)]
    ∧ ((after State.reset 0x02450000FFFF0000).voices.map fun v => (voiceActive v, v.vel)).head? = some (true, 0) := by
  decide +kernel
/-- T40: with every slot active the note steals slot 0, which restarts from level 0. -/
theorem test_note_on_steals :
    ((after (withVoices [sounding 60, sounding 64]) 0x024C000000008000).voices.map fun v => (v.note, v.aenv))
    = [(76, ⟨.attack, 0⟩), (64, ⟨.sustain, 7 / 10⟩)] := by decide +kernel
/-- R218's example. -/
theorem test_note_off :
    ((after (withVoices [sounding 60, sounding 64, sounding 60]) 0x033C000000000000).voices.map
      fun v => (v.aenv, v.fenv.stage))
    = [(⟨.release, 7 / 10⟩, .release), (⟨.sustain, 7 / 10⟩, .decay), (⟨.release, 7 / 10⟩, .release)] := by
  decide +kernel
/-- R219, T42. -/
theorem test_all_notes_off :
    ((after (withVoices [sounding 60, idle 1]) 0x0400000000000000).voices.map
      fun v => (v.active, v.aenv.stage)) = [(true, .release), (false, .idle)] := by decide +kernel

/-- The record of program P5, its 18 fields as Q operands. -/
def presetP5 : Preset Scalar where
  mixSine := operandQ 0x00000000
  mixTri := operandQ 0x00004000
  mixSaw := operandQ 0x00010000
  mixSquare := operandQ 0x00020000
  mixNoise := operandQ 0xFFFF0000
  cutoff := operandQ 0x75300000
  resonance := operandQ 0x00010000
  drive := operandQ 0x00008000
  ampAttack := operandQ 0x00000000
  ampDecay := operandQ 0x00000CCD
  ampSustain := operandQ 0x0000999A
  ampRelease := operandQ 0x00140000
  fltAttack := operandQ 0x00000083
  fltDecay := operandQ 0x00003333
  fltSustain := operandQ 0x00018000
  fltRelease := operandQ 0x00010000
  envDepth := operandQ 0x0000C000
  masterVolume := operandQ 0x0000E666

/-- The configuration of program P5. -/
def cfgP5 : Cfg Scalar := { Cfg.reference with sr := .hz48000, presets := [presetP5] }

/-- P5: the load under the ladder. -/
theorem test_load_preset :
    let t := after (after (State.resetWith cfgP5) 0x060C000000000001) 0x0500000000000000
    t.params.cutoff = 10800 ∧ t.params.resonance = 1 ∧ t.params.mixSquare = 1 ∧ t.params.mixNoise = 0
    ∧ t.params.ampAttack = 1 / 1000 ∧ t.params.ampRelease = 10 ∧ t.params.fltSustain = 1
    ∧ t.params.envDepth = 3 / 4 ∧ t.presetIndex = some 0 := by decide +kernel
/-- T42: an index at NPRESETS. -/
theorem test_load_preset_invalid : after (State.resetWith cfgP5) 0x0501000000000000 = State.resetWith cfgP5 := by
  decide +kernel

/-- R166's example: the phase goes to 0, the held value stays. -/
theorem test_lfo_sync : (after { State.reset with lfo := ⟨3 / 10, 1 / 4, 9⟩ } 0x0700000000000000).lfo
    = ⟨0, 1 / 4, 9⟩ := by decide +kernel
/-- T20: mask 101 keeps the delay; the positions stay. -/
theorem test_fx_clear :
    let s := { State.reset with chorus := ⟨marked, marked, 7, 0, 0⟩, delay := ⟨marked, marked, 8⟩ }
    let t := after s 0x0805000000000000
    t.chorus = ⟨Memory.empty, Memory.empty, 7, 0, 0⟩ ∧ t.delay = s.delay := by decide +kernel

/-! ## Units, with numerics that meet the laws and the reference generator -/

/-- The reference generator of R12. -/
def lcg (g : Nat) : Nat × Scalar :=
  let n := (1664525 * g + 1013904223) % 4294967296
  (n, (n : Scalar) / 2147483648 - 1)

/-- Numerics for tests: the witness, which does not round, the reference generator, and a tangent of 1/2 (T35's
`wc = 1`). -/
def refNum : Numerics Scalar := { Numerics.witness with next := lcg, tan := fun _ => 1 / 2 }

/-- T26. -/
theorem test_draw : draw refNum 1 = (1015568748 / 2147483648 - 1, 1015568748)
    ∧ (draw refNum 1013904223).2 = 1196435762 := by decide +kernel
/-- T23. -/
theorem test_blep : blep refNum 0 (1 / 8) = -1 ∧ blep refNum (1 / 16) (1 / 8) = -1 / 4 ∧ blep refNum (1 / 8) (1 / 8) = 0
    ∧ blep refNum (7 / 8) (1 / 8) = 0 ∧ blep refNum (15 / 16) (1 / 8) = 1 / 4 ∧ blep refNum (1 / 2) 0 = 0 := by decide +kernel
/-- T22, T24. -/
theorem test_waves : triWave refNum (1 / 8) = -1 / 2 ∧ sawWave refNum 0 (1 / 8) = 0 ∧ sawWave refNum (1 / 8) (1 / 8) = -3 / 4
    ∧ squareWave refNum 0 (1 / 8) = 0 ∧ squareWave refNum (1 / 2) (1 / 8) = 0 ∧ squareWave refNum (7 / 16) (1 / 8) = 3 / 4
    ∧ squareWave refNum (9 / 16) (1 / 8) = -3 / 4 := by decide +kernel
/-- T27: all weights 0: silence, one draw, one advance. -/
theorem test_osc_silent : Osc.process refNum { refParams with mixSine := 0 } ⟨1 / 4, 1 / 8, 1⟩
    = (0, ⟨3 / 8, 1 / 8, 1015568748⟩) := by decide +kernel
/-- T28. -/
theorem test_sec : (Sec.process refNum { refParams with secMode := .morph, secShape := 1 }
    ⟨1 / 4, 1 / 8, 3⟩) = (-1 / 2, ⟨3 / 8, 1 / 8, 1018897798⟩) := by decide +kernel
/-- T29d, T29h, T29i, T29j, T29k. -/
theorem test_envelope :
    (Env.process refNum .hz192000 ⟨1 / 100, 1 / 10, 4 / 10, 3 / 10⟩ ⟨.sustain, 7 / 10⟩) = ⟨.sustain, 4 / 10⟩
    ∧ (Env.process refNum .hz192000 ⟨1 / 100, 1 / 10, 7 / 10, 3 / 10⟩ (Env.noteOff (Env.noteOn ⟨.idle, 0⟩)))
      = ⟨.idle, 0⟩
    ∧ Env.noteOff (⟨.idle, 0⟩ : Env Scalar) = ⟨.idle, 0⟩
    ∧ (Env.process refNum .hz192000 ⟨1 / 100, 1 / 10, 1, 3 / 10⟩ ⟨.decay, 1⟩) = ⟨.sustain, 1⟩
    ∧ Env.kill (⟨.attack, 3 / 10⟩ : Env Scalar) = ⟨.idle, 0⟩ := by decide +kernel
/-- T31. -/
theorem test_lfo_shapes : lfoValue refNum .triangle (1 / 4) 0 = 0 ∧ lfoValue refNum .sawUp (1 / 4) 0 = -1 / 2
    ∧ lfoValue refNum .sawDown (1 / 4) 0 = 1 / 2 ∧ lfoValue refNum .square (1 / 2) 0 = -1
    ∧ lfoValue refNum .sampleHold (1 / 4) (3 / 10) = 3 / 10 := by decide +kernel
/-- T32: the wrap draws, and the drawn value is for the next call. -/
theorem test_lfo_wrap : Lfo.process refNum .hz192000 { refParams with lfoRate := 9375 / 100, lfoShape := .sampleHold }
    ⟨2047 / 2048, 0, 0⟩ = (0, ⟨0, 1013904223 / 2147483648 - 1, 1013904223⟩) := by decide +kernel
/-- T33: `f = 1`, `q = 1`: an impulse, then a zero. -/
theorem test_svf :
    let P := { refParams with resonance := 1 / 2 }
    let r := svfProcess refNum .hz192000 P 1 32000 Filter.zero
    let u := svfProcess refNum .hz192000 P 0 32000 r.2
    (r.2.low, r.2.high, r.2.band, r.2.notch) = (1, -1, 0, 0)
    ∧ (u.2.low, u.2.high, u.2.band, u.2.notch) = (0, 1, 0, 1) := by decide +kernel
/-- T34: drive 0.75 clips before and after, drive 0.5 before only. -/
theorem test_svf_drive :
    (svfProcess refNum .hz192000 { refParams with drive := 3 / 4, filterMode := .hp } 1 32000 Filter.zero).1
      = -62 / 63
    ∧ (svfProcess refNum .hz192000 { refParams with drive := 1 / 2, filterMode := .hp } (4 / 10) 32000
      Filter.zero).1 = -14 / 9 := by decide +kernel
/-- R184's example and T35: `g = 0.5`; with drive 1 the first stage is `sc(2) = 62/63`. -/
theorem test_ladder :
    (ladderProcess refNum .hz192000 refParams 1 24000 Filter.zero).2.s0 = 109 / 234
    ∧ (ladderProcess refNum .hz192000 { refParams with drive := 1 } 1 24000 Filter.zero).2.s0 = 62 / 63 := by
  decide +kernel
/-- R205's example: 320000 Hz is limited to 20000, and a sum below 20 to 20 (T38). -/
theorem test_voice_cutoff :
    voiceCutoff Numerics.witness 0 { refParams with envDepth := 1 } 1 0 = 20000
    ∧ voiceCutoff Numerics.witness 1000 { refParams with cutoff := 20 } 0 (-1 / 2) = 20 := by decide +kernel
/-- T45: the fractional read at 338.25. -/
theorem test_frac_read : fracRead refNum 4096 ((Memory.empty.write 62 1).write 61 5) 400 (33825 / 100) = 3 / 4 * 1 + 1 / 4 * 5 := by
  decide +kernel
/-- T46: the delay in samples at 0, 1/65536 and 2 seconds. -/
theorem test_delay_samples : delaySamples refNum .hz192000 { refParams with delayTime := 0 } = 1
    ∧ delaySamples refNum .hz192000 { refParams with delayTime := 1 / 65536 } = 2
    ∧ delaySamples refNum .hz192000 { refParams with delayTime := 2 } = 383999 := by decide +kernel
/-- T47 at ticks 2999 and 3336: 0.25 through both allpasses, and the second one's echo. -/
theorem test_reverb :
    let P := { refParams with reverbMix := 1 }
    let v := { State.reset.reverb with comb0 := ⟨Memory.empty.write 0 1, 0⟩ }
    let r := v.process refNum P ⟨0, 0⟩
    r.1 = ⟨1225 / 10000, 1225 / 10000⟩ ∧ r.2.ap0.buf.read 0 = 1 / 4 ∧ r.2.ap1.buf.read 0 = -175 / 1000 := by
  decide +kernel
/-- T43: a tick on the reset state. -/
theorem test_tick :
    let r := tick refNum State.reset.toStateOf
    r.1 = ⟨0, 0⟩ ∧ r.2.lfo.phase = 1 / 192000 ∧ r.2.chorus.w = 1 ∧ r.2.delay.w = 1 ∧ r.2.reverb.comb3.pos = 1
    ∧ r.2.chorus.phR = 11 / 1920000 ∧ r.2.voices = State.reset.voices := by decide +kernel
/-- P1's second tick, up to the filter: one active voice advances, an inactive one does not. -/
theorem test_tick_voices :
    let r := tick refNum (withVoices [sounding 60, { sounding 64 with active := false }]).toStateOf
    r.2.voices.map (fun v => v.osc1.g) = [1015568748, 1] := by decide +kernel

/-! ## Rounding: each operator's result, in the written order (R9), by hand in multiples of 1/2 rounded down -/

/-- `(1 − 1/2) × 1/2 + 1/2 × 1/2`: both products are 1/4 and round to 0 before the sum. -/
theorem test_round_crossfade : crossfade Numerics.grid (1 / 2) (1 / 2) (1 / 2) = 0 := by decide +kernel
/-- `1/2 + 0.9 × (1 − 1/2)`: the difference is 1/2, the product 0.45 rounds to 0. -/
theorem test_round_approach : approach Numerics.grid (9 / 10) 1 (1 / 2) = 1 / 2
    ∧ approach Numerics.grid 1 1 (1 / 2) = 1 := by decide +kernel
/-- CUTOFF's upper bound 0.225 × 48000 = 10800 is a number of the format; the comparison of the clamp is exact. -/
theorem test_round_cutoff : (Params.setCutoff Numerics.grid .hz48000 (107999 / 10)
    { refParams with filterType := .ladder }).cutoff = 107999 / 10 := by decide +kernel

/-! ## Witnesses: concrete states and operands that meet the statements' hypotheses -/

theorem witness_ignored_bits :
    (0x00FFFFFFFFFFFFFF : Word).extractLsb' 56 8 = (0 : Word).extractLsb' 56 8
    ∧ (∀ p ∈ ([(0x0245000000010000, 0x02C5ABCD00010000), (0x0345000000010000, 0x03C5FFFF00010000)] :
        List (Word × Word)), p.1.extractLsb' 56 8 = p.2.extractLsb' 56 8
          ∧ p.1.extractLsb' 48 7 = p.2.extractLsb' 48 7 ∧ p.1.extractLsb' 0 32 = p.2.extractLsb' 0 32)
    ∧ (∀ p ∈ ([(0x0503000000000000, 0x0503FFFF00000000), (0x0608000003E80000, 0x0608FFFF03E80000)] :
        List (Word × Word)), p.1.extractLsb' 56 8 = p.2.extractLsb' 56 8
          ∧ p.1.extractLsb' 48 8 = p.2.extractLsb' 48 8 ∧ p.1.extractLsb' 0 32 = p.2.extractLsb' 0 32)
    ∧ (0x0804000000000000 : Word).extractLsb' 56 8 = (0x08FCFFFFFFFFFFFF : Word).extractLsb' 56 8
    ∧ (0x0804000000000000 : Word).extractLsb' 48 3 = (0x08FCFFFFFFFFFFFF : Word).extractLsb' 48 3 := by
  refine ⟨by decide, ?_, ?_, by decide, by decide⟩ <;>
    (intro p hp; fin_cases hp <;> exact ⟨by decide, by decide, by decide⟩)

theorem witness_reserved_words :
    ∀ w ∈ ([0x0900000000000000, 0xFFFFFFFFFFFFFFFF, 0x0606000000000000, 0x0642000000000000, 0x06FF000000000000] :
        List Word),
      ({ State.reset with stream := [.command w] } : State).stream = .command w :: []
      ∧ (∃ r, decode w = .error r)
      ∧ (0x09 ≤ (w.extractLsb' 56 8).toNat ∨ (w.extractLsb' 56 8).toNat = 0x06) := by
  intro w hw
  fin_cases hw <;> exact ⟨rfl, ⟨_, rfl⟩, by decide⟩

theorem witness_numeric_operand :
    (-32768 : Scalar) ≤ -32768 ∧ (32768 - 1 / 65536 : Scalar) ≤ 32768 - 1 / 65536
    ∧ absolute (operandQ (encodeQ (1 / 131072)) - 1 / 131072 : Scalar) = 1 / 131072
    ∧ (32768 - 1 / 65536 : Scalar) < 32768 ∧ (-32769 : Scalar) < -32768 := by decide +kernel

theorem witness_step_runs :
    ({ State.reset with stream := [.command 0x0100000000000000] } : State).stream
      = .command 0x0100000000000000 :: [] ∧ decode 0x0100000000000000 = .ok .tick := ⟨rfl, by decide⟩

theorem witness_step_without_command : State.reset.stream = []
    ∧ ({ State.reset with stream := [.reset cfgP5] } : State).stream = .reset cfgP5 :: [] := ⟨rfl, rfl⟩

theorem witness_lfo_rate_norm : (((0 : BitVec 32).toInt : Scalar) / 65536 ≤ 0)
    ∧ 1 ≤ (((0x00010000 : BitVec 32).toInt : Scalar) / 65536) ∧ State.reset.cfg.num = .exact := by decide +kernel

theorem witness_setp_idempotent : opField (encode (.setpDrive 0x0000C000)) = 0x06
    ∧ ∃ t, exec (.setpDrive 0x0000C000) State.reset = .next t := ⟨by decide, _, rfl⟩

theorem witness_note_on_first : State.reset.voices[0]? = some (idle 0)
    ∧ voiceActive (idle 0) = false := ⟨rfl, rfl⟩

theorem witness_note_on_second :
    let s := withVoices [sounding 60, idle 1]
    s.voices[1]? = some (idle 1) ∧ voiceActive (idle 1) = false
    ∧ ∀ j, j < 1 → ∀ u, s.voices[j]? = some u → voiceActive u = true := by
  refine ⟨rfl, rfl, ?_⟩
  intro j hj u hu
  obtain rfl : j = 0 := by omega
  obtain rfl : sounding 60 = u := by simpa [withVoices] using hu
  rfl

theorem witness_note_on_steals :
    let s := withVoices [sounding 60, sounding 64]
    s.voices = sounding 60 :: [sounding 64] ∧ ∀ u ∈ s.voices, voiceActive u = true := ⟨rfl, by decide⟩

theorem witness_fifth_note : State.reset.voices.length = 4 ∧ ∀ v ∈ State.reset.voices, voiceActive v = false :=
  ⟨rfl, by decide⟩

theorem witness_load_preset : (State.resetWith cfgP5).cfg.presets.length ≤ 1
    ∧ (State.resetWith cfgP5).cfg.presets[0]? = some presetP5 := ⟨le_rfl, rfl⟩

theorem witness_tick : ∃ t u, exec .tick (withVoices [sounding 60, idle 1]) = .next t
    ∧ t.voices[1]? = some u ∧ voiceActive (idle 1) = false := ⟨_, _, rfl, rfl, rfl⟩

/-- A state in which a tick stores to rings in their canonical form, some of them marked, the chorus at a position
beyond its length. -/
theorem witness_tick_stores :
    let s : State := { State.reset with chorus := ⟨marked, marked, 4101, 0, 0⟩, delay := ⟨marked, marked, 5⟩ }
    (∃ t, exec .tick s = .next t) ∧ s.chorus.bufL.wf = true ∧ s.chorus.bufR.wf = true ∧ s.delay.bufL.wf = true
    ∧ s.delay.bufR.wf = true ∧ s.reverb.comb0.buf.wf = true ∧ s.reverb.comb1.buf.wf = true
    ∧ s.reverb.comb2.buf.wf = true ∧ s.reverb.comb3.buf.wf = true ∧ s.reverb.ap0.buf.wf = true
    ∧ s.reverb.ap1.buf.wf = true ∧ 5 = s.chorus.w % 4096 ∧ 6 ≠ s.chorus.w % 4096 :=
  ⟨⟨_, rfl⟩, by decide +kernel⟩

theorem witness_ring_positions : State.reset.chorus.w < 4096 ∧ State.reset.delay.w < 2 * State.reset.cfg.sr.hz
    ∧ State.reset.reverb.ap1.pos < 337 ∧ ∃ t, exec .tick State.reset = .next t := ⟨by decide, by decide, by decide, _, rfl⟩

theorem witness_voices_do_not_interact :
    let s := withVoices [sounding 60, sounding 64]
    let s' := withVoices [sounding 60, sounding 67]
    s.cfg = s'.cfg ∧ s.params = s'.params ∧ s.lfo = s'.lfo ∧ s.voices[0]? = s'.voices[0]? ∧ s.voices ≠ s'.voices
    ∧ (∃ t, exec .tick s = .next t) ∧ ∃ t', exec .tick s' = .next t' :=
  ⟨rfl, rfl, rfl, rfl, by decide +kernel, ⟨_, rfl⟩, _, rfl⟩

theorem witness_silent_run : ∃ t, ([.tick, .lfoSync, .tick] : List Instr).foldlM
    (fun s i => match exec i s with | .next s' => some s' | _ => none) (State.resetWith cfgP5) = some t := ⟨_, rfl⟩

theorem witness_who_writes :
    (∃ t, exec (.setpDrive 0x0000C000) State.reset = .next t ∧ t.params ≠ State.reset.params)
    ∧ (∃ t, exec (.loadPreset 0) (State.resetWith cfgP5) = .next t ∧ t.presetIndex ≠ none)
    ∧ (∃ t, exec .lfoSync { State.reset with lfo := ⟨1 / 2, 0, 0⟩ } = .next t ∧ t.lfo ≠ ⟨1 / 2, 0, 0⟩)
    ∧ (∃ t, exec (.noteOff 60) (withVoices [sounding 60]) = .next t ∧ t.voices ≠ [sounding 60])
    ∧ (∃ t, exec (.fxClear 1) { State.reset with chorus := ⟨marked, marked, 0, 0, 0⟩ } = .next t
        ∧ t.chorus ≠ ⟨marked, marked, 0, 0, 0⟩)
    ∧ (∃ t, exec (.noteOn 60 0) (withVoices [idle 0]) = .next t
        ∧ t.voices.map Voice.active ≠ [false]) :=
  ⟨⟨_, rfl, by decide +kernel⟩, ⟨_, rfl, by decide +kernel⟩, ⟨_, rfl, by decide +kernel⟩, ⟨_, rfl, by decide +kernel⟩,
    ⟨_, rfl, by decide +kernel⟩, ⟨_, rfl, by decide +kernel⟩⟩

/-- Formats of each kind: one that does not round, one that does, and the reference instance. -/
theorem witness_formats : Numerics.witness.Exact ∧ Numerics.witness.rnd = id ∧ Numerics.grid.Lawful
    ∧ Numerics.grid.rnd (1 / 3) ≠ 1 / 3 ∧ (Numerics.reference fun g => (g, 0)).Exact :=
  ⟨Numerics.witness_exact, rfl, Numerics.grid_lawful, by decide +kernel,
    Numerics.reference_exact fun _ => by norm_num⟩

/-- R9, R10: an operator on π rounds the exact product with the circle constant, not a product with a rounded one:
π × 4 = 12.566… is 12.5 in multiples of 1/2, where 3 × 4 would be 12. -/
theorem test_times_pi : Numerics.grid.timesPi 4 = 25 / 2 := by
  have h1 := Real.pi_gt_d2
  have h2 := Real.pi_lt_d2
  have : ⌊2 * (Real.pi * ((4 : Scalar) : ℝ))⌋ = 25 := by rw [Int.floor_eq_iff]; push_cast; constructor <;> linarith
  simp only [Numerics.grid, floorTwoPi_eq, this]
  norm_num

/-- The reference machine: its reset configuration is legal, and after reset its first voice is free. -/
theorem witness_reference_machine : cfgLegal (Numerics.reference fun g => (g, 0)) (Cfg.reference : Cfg ℝ)
    ∧ (StateOf.resetWith (Cfg.reference : Cfg ℝ)).voices[0]? = some (Voice.reset Cfg.reference 0)
    ∧ voiceActive (Voice.reset (Cfg.reference : Cfg ℝ) 0) = false := by
  refine ⟨⟨by decide, Nat.zero_le _, ?_, ?_, ?_⟩, rfl, rfl⟩
  · constructor <;> norm_num [Cfg.reference, Params.reference, within, delayMaxS]
  · norm_num [Cfg.reference, Params.reference, within, cutoffMax, Numerics.mul, Numerics.reference, rate, SampleRate.hz]
  · norm_num [Cfg.reference, Params.reference, within, resonanceMax]

/-- `ClipBounded` is a property to ask for: a format can have it, and the grid does not, at x = −2.9. -/
theorem witness_clip_bounded : (∃ N : Numerics Scalar, ClipBounded N) ∧ ¬ ClipBounded Numerics.grid := by
  refine ⟨⟨{ Numerics.grid with rnd := fun _ => 0 }, fun x => ?_⟩, fun h => absurd (h (-29 / 10)) (by decide +kernel)⟩
  simp only [softClip, Numerics.div]
  split_ifs <;> norm_num

theorem witness_dry : State.reset.params.chorusMix = 0 ∧ State.reset.params.delayMix = 0
    ∧ State.reset.params.reverbMix = 0 ∧ State.reset.delay.bufL = State.reset.delay.bufR
    ∧ State.reset.num.inT (1 / 3) := ⟨rfl, rfl, rfl, rfl, rfl⟩

theorem witness_lfo : Numerics.witness.Exact ∧ 0 ≤ State.reset.lfo.phase ∧ State.reset.lfo.phase < 1
    ∧ -1 ≤ State.reset.lfo.held ∧ State.reset.lfo.held < 1 ∧ 0 ≤ refParams.lfoRate
    ∧ State.reset.lfo.phase + (2 : Nat) * (refParams.lfoRate / SampleRate.hz192000.hz) < 1 :=
  ⟨Numerics.witness_exact, by decide +kernel⟩

theorem witness_blep :
    ∀ p ∈ ([(0, 1 / 8), (1 / 16, 1 / 8)] : List (Scalar × Scalar)), 0 ≤ p.1 ∧ p.1 < 1 ∧ p.1 < p.2 := by
  decide +kernel
theorem witness_blep_outside :
    (¬ (15 / 16 : Scalar) < 1 / 8 ∧ (1 - 1 / 8 : Scalar) < 15 / 16)
    ∧ (¬ (1 / 8 : Scalar) < 1 / 8 ∧ ¬ (1 - 1 / 8 : Scalar) < 1 / 8)
    ∧ (¬ (7 / 8 : Scalar) < 1 / 8 ∧ ¬ (1 - 1 / 8 : Scalar) < 7 / 8) := by decide +kernel

theorem witness_units : (⟨0, 11 / 4800, 1⟩ : Osc Scalar).phase = 0 ∧ refParams.secMode = .pm
    ∧ refParams.secIndex = 0 ∧ ({ refParams with secMode := .morph, secShape := 1 } : Params Scalar).secShape = 1
    ∧ (⟨.decay, 1⟩ : Env Scalar).stage ≠ .idle ∧ (Env.reset : Env Scalar).stage = .idle ∧ refParams.filterType = .svf
    ∧ ({ refParams with filterType := .ladder } : Params Scalar).filterType = .ladder := by decide +kernel

/-- The branches of the envelope's step, at both sides of each threshold. -/
theorem witness_envelope_branches :
    let k : Scalar := 1 - Numerics.witness.exp (-(22 / 10) / (1 / 100 * SampleRate.hz192000.hz))
    1 ≤ 1 + k * (13 / 10 - 1) ∧ 0 + k * (13 / 10 - 0) < 1
    ∧ absolute (7 / 10 + k * (7 / 10 - 7 / 10) - 7 / 10) ≤ 1 / 1000
    ∧ 1 / 1000 < absolute (1 + k * (7 / 10 - 1) - 7 / 10)
    ∧ 1 / 1000 + k * (0 - 1 / 1000) ≤ 1 / 1000 ∧ 1 / 1000 < 1 + k * (0 - 1) := by decide +kernel

theorem witness_envelope_range : Numerics.witness.Exact
    ∧ (within (1 / 1000) 10 (ampAdsr refParams).attack ∧ within (1 / 1000) 10 (ampAdsr refParams).decay
      ∧ within 0 1 (ampAdsr refParams).sustain ∧ within (1 / 1000) 10 (ampAdsr refParams).release)
    ∧ envLegal Numerics.witness ⟨.decay, 1⟩
    ∧ 13 / 10 * (1 - (1 - coef Numerics.witness .hz192000 (1 / 100)) ^ 1) < 1 :=
  ⟨Numerics.witness_exact, by decide +kernel, by decide +kernel, by decide +kernel⟩

theorem witness_soft_clip : ((-3 : Scalar) ≤ 3 ∧ (3 : Scalar) ≤ 3) ∧ ((3 : Scalar) < 4 ∧ (-4 : Scalar) < -3)
    ∧ ((-3 : Scalar) ≤ -3 ∧ (-3 : Scalar) < 3) := by decide +kernel

theorem witness_coefficients : Numerics.witness.Exact ∧ within 0 1 refParams.resonance
    ∧ within 0 1 refParams.chorusDepth := ⟨Numerics.witness_exact, by decide +kernel, by decide +kernel⟩

theorem witness_ring_access : 0 < 4096 ∧ marked.wf = true ∧ marked.fits 4096 = true
    ∧ ((5 : Int) - (-1)) % (4096 : Nat) ≠ 0 := by decide +kernel

theorem witness_fractional_read : (1344 : Scalar) = (1344 : Nat) ∧ Numerics.grid.inT (3 / 2)
    ∧ ¬ Numerics.grid.inT (1 / 3) := ⟨by norm_num, by decide +kernel, by decide +kernel⟩

theorem witness_echo :
    let P := { refParams with delayTime := 1 / 65536, delayMix := 1 }
    State.reset.delay.bufL.wf = true ∧ State.reset.delay.w < 2 * SampleRate.hz192000.hz
    ∧ (([⟨0, 0⟩] : List (Frame Scalar)).length : Int) + 1 = delaySamples Numerics.witness .hz192000 P
    ∧ P.delayMix = 1 := by decide +kernel

theorem cfgP5_legal : cfgLegal (Config.num .exact) cfgP5 := by
  refine ⟨by decide, by decide, ?_, by decide +kernel, by decide +kernel⟩
  constructor <;> decide +kernel

theorem paramsP5_legal : PlainLegal cfgP5.resetParams := cfgP5_legal.2.2.1

/-- A legal state with a sounding voice, a marked ring, a loaded preset and a word to run. -/
theorem witness_legal :
    ({ State.resetWith cfgP5 with
        voices := [sounding 60, sounding 64, Voice.reset cfgP5 2, Voice.reset cfgP5 3]
        delay := ⟨marked, marked, 95999⟩
        presetIndex := some 0
        stream := [.command 0x0100000000000000, .reset cfgP5] } : State).Legal where
  cfg := cfgP5_legal
  pool := rfl
  params := ⟨paramsP5_legal, by decide +kernel⟩
  lfo := by decide +kernel
  voices := by
    intro v hv
    simp only [List.mem_cons, List.not_mem_nil, or_false] at hv
    rcases hv with rfl | rfl | rfl | rfl <;>
      exact ⟨by decide +kernel, by decide +kernel, by decide +kernel, by decide +kernel, by decide +kernel,
        fun _ => by decide +kernel, by decide +kernel, by decide +kernel, by decide +kernel⟩
  chorus := by decide +kernel
  delay := by decide +kernel
  reverb := by decide +kernel
  presetIndex := by decide +kernel
  stream := by
    intro e he cfg hc
    rcases List.mem_cons.1 he with rfl | he
    · cases hc
    · cases List.mem_singleton.1 he
      cases hc
      exact cfgP5_legal

end Sys2Proof.Tests
end

/-! Proofs of the family 00_scope: every command completes (O10), who writes what (O31), the LFO's ranges (O35), the
reset state's legality (O59), with the lemmas they rest on. -/

namespace Sys2Proof

/-- Case analysis on a command with the 38 SETP rows as one case, known by their opcode (R96, R97). -/
theorem Instr.casesBySetp {motive : Instr → Prop}
    (setp : ∀ i, opField (encode i) = 0x06 → motive i)
    (nop : motive .nop) (tick : motive .tick)
    (noteOn : ∀ note velocity, motive (.noteOn note velocity)) (noteOff : ∀ note, motive (.noteOff note))
    (allNotesOff : motive .allNotesOff) (loadPreset : ∀ index, motive (.loadPreset index))
    (lfoSync : motive .lfoSync) (fxClear : ∀ mask, motive (.fxClear mask)) (i : Instr) : motive i := by
  cases i with
  | nop => exact nop
  | tick => exact tick
  | noteOn note velocity => exact noteOn note velocity
  | noteOff note => exact noteOff note
  | allNotesOff => exact allNotesOff
  | loadPreset index => exact loadPreset index
  | lfoSync => exact lfoSync
  | fxClear mask => exact fxClear mask
  | _ => exact setp _ (opField_packWord _ _ _)

end Sys2Proof

/-! ## Every command completes; what each writes (R11, R265, R320) -/

namespace Sys2Proof.Machine

theorem exec_completes (i : Instr) (s : State) : ∃ t, exec i s = .next t := ⟨_, exec_eq_command i s⟩

theorem step_completes (s : State) : ∃ t, step s = .next t := ⟨_, step_eq_step s⟩

theorem exec_tick_frames {s t : State} (h : exec .tick s = .next t) : ∃ f, t.frames = s.frames ++ [f] := by
  cases (exec_tick s).symm.trans h
  exact ⟨_, rfl⟩

/-- `LOAD_PRESET` writes the parameter file and PRESET_INDEX, whether the index is in the table or not (R220). -/
theorem exec_loadPreset (index : Nat) (s : State) :
    ∃ P o, exec (.loadPreset index) s = .next { s with params := P, presetIndex := o } := by
  cases h : s.cfg.presets[index]? with
  | none => exact ⟨_, _, exec_loadPreset_none h⟩
  | some r => exact ⟨_, _, exec_loadPreset_some h⟩

theorem exec_frames_of_ne_tick {i : Instr} {s t : State} (h : exec i s = .next t) (hi : i ≠ .tick) :
    t.frames = s.frames := by
  cases i using Instr.casesBySetp with
  | setp i hop =>
    obtain ⟨P, hP⟩ := exec_setp hop s
    cases hP.symm.trans h; rfl
  | nop => cases (exec_nop s).symm.trans h; rfl
  | tick => exact absurd rfl hi
  | noteOn note velocity => cases (exec_noteOn note velocity s).symm.trans h; rfl
  | noteOff note => cases (exec_noteOff note s).symm.trans h; rfl
  | allNotesOff => cases (exec_allNotesOff s).symm.trans h; rfl
  | loadPreset index =>
    obtain ⟨P, o, hP⟩ := exec_loadPreset index s
    cases hP.symm.trans h; rfl
  | lfoSync => cases (exec_lfoSync s).symm.trans h; rfl
  | fxClear mask => cases (exec_fxClear mask s).symm.trans h; rfl

/-- Settles O10: the machine's commands and steps are total functions of the state, and only `TICK` outputs. -/
theorem everyCommandCompletes : Obligations.EveryCommandCompletes := by
  refine ⟨fun i s => ?_, step_completes⟩
  obtain ⟨t, ht⟩ := exec_completes i s
  refine ⟨t, ht, ?_, exec_frames_of_ne_tick ht⟩
  rintro rfl
  exact exec_tick_frames ht

/-- A release keeps the active flag, of the voices it reaches and of the others (R203). -/
@[simp] theorem ite_noteOff_active {X : Type} {p : Prop} [Decidable p] (v : Voice X) :
    (if p then v.noteOff else v).active = v.active := by split <;> rfl

/-- A tick keeps every active flag (R206). -/
theorem monoTick_map_active {X : Type} [Field X] [LinearOrder X] [FloorRing X] (N : Numerics X) (s : StateOf X) :
    (monoTick N s).2.2.map Voice.active = s.voices.map Voice.active := by
  rw [monoTick, sumVoices_eq, List.map_map]
  refine List.map_congr_left fun v _ => ?_
  cases h : voiceActive v <;> simp [h]

/-- Settles O31: each command's next state differs from the state before it in the fields it writes only; the flags
outlive the ticks and releases that write the pool. -/
theorem whoWritesWhat : Obligations.WhoWritesWhat := by
  intro i s t h
  cases i using Instr.casesBySetp with
  | setp i hop =>
    obtain ⟨P, hP⟩ := exec_setp hop s
    cases hP.symm.trans h
    simp [hop]
  | nop => cases (exec_nop s).symm.trans h; simp
  | tick => cases (exec_tick s).symm.trans h; simp [monoTick_map_active]
  | noteOn note velocity => cases (exec_noteOn note velocity s).symm.trans h; simp
  | noteOff note => cases (exec_noteOff note s).symm.trans h; simp
  | allNotesOff => cases (exec_allNotesOff s).symm.trans h; simp
  | loadPreset index =>
    obtain ⟨P, o, hP⟩ := exec_loadPreset index s
    cases hP.symm.trans h
    simp
  | lfoSync => cases (exec_lfoSync s).symm.trans h; simp
  | fxClear mask => cases (exec_fxClear mask s).symm.trans h; simp

end Sys2Proof.Machine

/-! ## Rounding keeps to the multiples of 1/2 that bound its argument -/

namespace Sys2Proof.Numerics

variable {X : Type} [Field X] [LinearOrder X] [FloorRing X] {N : Numerics X}

theorem Lawful.le_rnd_of_half_le (h : N.Lawful) {n : Int} (h1 : -8 ≤ n) (h2 : n ≤ 40) {x : X} (hx : (n : X) / 2 ≤ x) :
    (n : X) / 2 ≤ N.rnd x := h.rnd_halves n h1 h2 ▸ h.rnd_mono _ _ hx

theorem Lawful.rnd_le_of_le_half (h : N.Lawful) {n : Int} (h1 : -8 ≤ n) (h2 : n ≤ 40) {x : X} (hx : x ≤ (n : X) / 2) :
    N.rnd x ≤ (n : X) / 2 := h.rnd_halves n h1 h2 ▸ h.rnd_mono _ _ hx

end Sys2Proof.Numerics

/-! ## The LFO's ranges (R25, R163, R164) -/

namespace Sys2Proof.Machine

section

variable {X : Type} [Field X] [LinearOrder X] [IsStrictOrderedRing X] [FloorRing X] {N : Numerics X}

theorem rnd_mem_zero_two (h : N.Lawful) {x : X} (hx : within 0 2 x) : within 0 2 (N.rnd x) := by
  refine ⟨h.rnd_nonneg hx.1, ?_⟩
  have e : ((4 : Int) : X) / 2 = 2 := by norm_num
  simpa only [e] using h.rnd_le_of_le_half (n := 4) (by norm_num) (by norm_num) (e.symm ▸ hx.2)

theorem sub_one_mem (h : N.Lawful) {x : X} (hx : within 0 2 x) : within (-1) 1 (N.sub x 1) :=
  ⟨h.neg_one_le_rnd (by linarith [hx.1]), h.rnd_le_one (by linarith [hx.2])⟩

theorem one_sub_mem (h : N.Lawful) {x : X} (hx : within 0 2 x) : within (-1) 1 (N.sub 1 x) :=
  ⟨h.neg_one_le_rnd (by linarith [hx.2]), h.rnd_le_one (by linarith [hx.1])⟩

theorem mul_two_mem (h : N.Lawful) {p : X} (hp : isPhase p) : within 0 2 (N.mul 2 p) :=
  rnd_mem_zero_two h ⟨by linarith [hp.1], by linarith [hp.2]⟩

/-- The distance of a phase from 1/2, rounded. -/
theorem absolute_sub_half_le (h : N.Lawful) {p : X} (hp : isPhase p) : absolute (N.sub p (1 / 2)) ≤ 1 / 2 := by
  obtain ⟨h0, h1⟩ := hp
  have lo := h.le_rnd_of_half_le (n := -1) (by norm_num) (by norm_num) (x := p - 1 / 2) (by push_cast; linarith)
  have hi := h.rnd_le_of_le_half (n := 1) (by norm_num) (by norm_num) (x := p - 1 / 2) (by push_cast; linarith)
  rw [absolute_eq_abs, abs_le]
  push_cast at lo hi
  exact ⟨by rw [Numerics.sub]; linarith, hi⟩

theorem triWave_mem (h : N.Lawful) {p : X} (hp : isPhase p) : within (-1) 1 (triWave N p) := by
  have h1 := absolute_sub_half_le h hp
  have h0 : 0 ≤ absolute (N.sub p (1 / 2)) := by rw [absolute_eq_abs]; exact abs_nonneg _
  exact one_sub_mem h (rnd_mem_zero_two h ⟨by linarith, by linarith⟩)

theorem ramp_mem (h : N.Lawful) {p : X} (hp : isPhase p) : within (-1) 1 (ramp N p) :=
  sub_one_mem h (mul_two_mem h hp)

theorem lfoValue_mem (h : N.Lawful) (k : LfoShape) {p held : X} (hp : isPhase p) (hh : -1 ≤ held ∧ held < 1) :
    within (-1) 1 (lfoValue N k p held) := by
  cases k with
  | sine => exact h.sin_range _
  | triangle => exact triWave_mem h hp
  | sawUp => exact ramp_mem h hp
  | sawDown => exact one_sub_mem h (mul_two_mem h hp)
  | square => simp only [lfoValue]; split <;> norm_num [within]
  | sampleHold => exact ⟨hh.1, hh.2.le⟩

/-- The next phase is one: where the rate is not negative, and at any rate where nothing is rounded. -/
theorem lfoNextPhase_isPhase (sr : SampleRate) {P : Params X} (h : N.Exact ∨ N.Lawful ∧ 0 ≤ P.lfoRate) {p : X}
    (hp : 0 ≤ p) : isPhase (lfoNextPhase N sr P p) := by
  rcases h with hE | ⟨hL, hrate⟩
  · rw [lfoNextPhase, wrap1_exact hE]
    exact ⟨Int.fract_nonneg _, Int.fract_lt_one _⟩
  · exact advance_mem hL hp (hL.rnd_nonneg (div_nonneg hrate (rate_pos sr).le))

omit [IsStrictOrderedRing X] in
/-- The held value after a call is the one before it or a draw. -/
theorem Lfo.process_held_mem (h : N.Lawful) (sr : SampleRate) (P : Params X) {l : Lfo X}
    (hh : -1 ≤ l.held ∧ l.held < 1) : -1 ≤ (l.process N sr P).2.held ∧ (l.process N sr P).2.held < 1 := by
  unfold Lfo.process
  dsimp only
  split
  · exact draw_mem h l.g
  · exact hh

omit [IsStrictOrderedRing X] in
theorem Lfo.process_value (sr : SampleRate) (P : Params X) (l : Lfo X) :
    (l.process N sr P).1 = lfoValue N P.lfoShape l.phase l.held := by
  unfold Lfo.process
  dsimp only
  split <;> rfl

end

/-- Settles O35: each shape's value lies in [−1, 1] because rounding fixes the multiples of 1/2 that bound its
operands, the phase is wrapped, and a new held value is a draw. -/
theorem lfoRange : Obligations.LfoRange := by
  intro X _ _ _ _ N sr P l hN ⟨hp0, hp1, hheld⟩
  have hL : N.Lawful := hN.elim Numerics.Exact.toLawful And.left
  obtain ⟨np0, np1⟩ := lfoNextPhase_isPhase sr hN hp0
  obtain ⟨held0, held1⟩ := Lfo.process_held_mem hL sr P hheld
  obtain ⟨v0, v1⟩ := lfoValue_mem hL P.lfoShape ⟨hp0, hp1⟩ hheld
  dsimp only
  rw [Lfo.process_phase, Lfo.process_value]
  exact ⟨np0, np1, held0, held1, v0, v1⟩

end Sys2Proof.Machine

/-! ## The reset state is legal (R7, R23, R31, R340) -/

namespace Sys2Proof.Machine

section

variable {X : Type} [Field X] [LinearOrder X] [IsStrictOrderedRing X] [FloorRing X] {N : Numerics X}

/-- The wider of the two types' intervals holds either type's bound of CUTOFF (R23, R272). -/
theorem cutoffMax_le (h : N.Lawful) (sr : SampleRate) (P : Params X) :
    cutoffMax N sr P ≤ N.mul (45 / 100) (rate sr) := by
  unfold cutoffMax
  split
  · exact le_rfl
  · exact h.rnd_mono _ _ (mul_le_mul_of_nonneg_right (by norm_num) (rate_pos sr).le)

omit [FloorRing X] in
theorem resonanceMax_le_one (P : Params X) : resonanceMax P ≤ 1 := by
  unfold resonanceMax
  split <;> norm_num

theorem paramsLegal_of_cfgLegal (h : N.Lawful) {c : Cfg X} (hc : cfgLegal N c) : paramsLegal N c.sr c.resetParams := by
  obtain ⟨-, -, plain, ⟨cutoff0, cutoff1⟩, resonance0, resonance1⟩ := hc
  exact ⟨plain, ⟨cutoff0, cutoff1.trans (cutoffMax_le h c.sr _)⟩,
    resonance0, resonance1.trans (resonanceMax_le_one _)⟩

omit [IsStrictOrderedRing X] in
theorem isPhase_zero : isPhase (0 : X) := ⟨le_rfl, one_pos⟩

theorem filterLegal_zero : filterLegal N Filter.zero := fun _ => by
  norm_num [Filter.zero, within]

omit [IsStrictOrderedRing X] in
theorem envLegal_reset : envLegal N Env.reset := ⟨⟨le_rfl, zero_le_one⟩, fun _ => rfl, nofun⟩

theorem voiceLegal_reset (c : Cfg X) (i : Nat) : voiceLegal N (Voice.reset c i) :=
  ⟨show 0 < 128 by decide, ⟨le_rfl, zero_le_one⟩, ⟨isPhase_zero, le_rfl⟩, ⟨isPhase_zero, le_rfl⟩, ⟨isPhase_zero, le_rfl⟩,
    filterLegal_zero, envLegal_reset, envLegal_reset, fun _ => ⟨rfl, rfl⟩⟩

omit [IsStrictOrderedRing X] [FloorRing X] in
theorem ringLegal_empty (n : Nat) : ringLegal n (Memory.empty : Memory X) := ⟨Memory.empty_wf, Memory.empty_fits n⟩

omit [IsStrictOrderedRing X] [FloorRing X] in
theorem lineLegal_reset {n : Nat} (hn : 0 < n) : lineLegal n (Line.reset : Line X) := ⟨ringLegal_empty n, hn⟩

theorem resetWith_legal {num : NumFormat → Numerics X} {c : Cfg X} (h : (num c.num).Lawful)
    (hc : cfgLegal (num c.num) c) : (StateOf.resetWith c).Legal num where
  cfg := hc
  pool := by simp
  params := paramsLegal_of_cfgLegal h hc
  lfo := ⟨isPhase_zero, neg_nonpos.2 zero_le_one, one_pos⟩
  voices := by
    intro v hv
    obtain ⟨i, -, rfl⟩ := List.mem_map.1 hv
    exact voiceLegal_reset c i
  chorus := ⟨ringLegal_empty _, ringLegal_empty _, show 0 < chorusLen by decide, isPhase_zero, isPhase_zero⟩
  delay := ⟨ringLegal_empty _, ringLegal_empty _, delayLen_pos c.sr⟩
  reverb := ⟨lineLegal_reset (by decide), lineLegal_reset (by decide), lineLegal_reset (by decide),
    lineLegal_reset (by decide), lineLegal_reset (by decide), lineLegal_reset (by decide)⟩
  presetIndex := nofun
  stream := nofun

/-- The configuration of `State.reset` is legal under every format that does not round (R31, log entry 5). -/
theorem cfgLegal_reference (h : N.Exact) : cfgLegal N (Cfg.reference : Cfg X) := by
  refine ⟨show 1 ≤ 4 by decide, Nat.zero_le _, ?_, ?_, ?_⟩
  · constructor <;> norm_num [within, Cfg.reference, Params.reference, delayMaxS]
  · norm_num [within, Cfg.reference, Params.reference, cutoffMax, h.mul, rate, SampleRate.hz]
  · norm_num [within, Cfg.reference, Params.reference, resonanceMax]

end

/-- Settles O59: over any lawful formats each part of the reset state is legal on its own, the registers because
`rnd` is monotone; the machine is at the rationals, its reference configuration legal. -/
theorem resetIsLegal : Obligations.ResetIsLegal :=
  ⟨fun _ _ _ _ _ _ c h hc => resetWith_legal (h c.num) hc,
    fun c hc => resetWith_legal (Config.num_lawful c.num) hc,
    resetWith_legal (Config.num_lawful .exact) (cfgLegal_reference Config.num_exact)⟩

end Sys2Proof.Machine

/-! Proofs of the family 10_state: the envelope's range (O45), the legality of every step (O60), the voices'
independence (O29), the silence before the first note (O30), the reset values (O9), with the lemmas they rest on. -/

/-! ## The envelope's range (R29, R143, R149 to R154) -/

namespace Sys2Proof.Machine

section

variable {X : Type} [Field X] [LinearOrder X] [IsStrictOrderedRing X] [FloorRing X] {N : Numerics X}

/-- The four registers of an envelope inside their intervals (R23, R278 to R285). -/
abbrev adsrLegal (a : Adsr X) : Prop :=
  within (1 / 1000) 10 a.attack ∧ within (1 / 1000) 10 a.decay ∧ within 0 1 a.sustain
    ∧ within (1 / 1000) 10 a.release

omit [IsStrictOrderedRing X] [FloorRing X] in
theorem ampAdsr_legal {P : Params X} (h : PlainLegal P) : adsrLegal (ampAdsr P) :=
  ⟨h.ampAttack, h.ampDecay, h.ampSustain, h.ampRelease⟩

omit [IsStrictOrderedRing X] [FloorRing X] in
theorem fltAdsr_legal {P : Params X} (h : PlainLegal P) : adsrLegal (fltAdsr P) :=
  ⟨h.fltAttack, h.fltDecay, h.fltSustain, h.fltRelease⟩

omit [IsStrictOrderedRing X] in
theorem twenty_le_rnd (h : N.Lawful) {x : X} (hx : 20 ≤ x) : 20 ≤ N.rnd x := by
  have e : ((40 : Int) : X) / 2 = 20 := by norm_num
  simpa only [e] using h.le_rnd_of_half_le (n := 40) (by norm_num) (by norm_num) (e.symm ▸ hx)

/-- A legal time lasts at least 20 samples when rounded, so the coefficient's divisor is positive (log entry 11). -/
theorem samples_pos (h : N.Lawful) (sr : SampleRate) {time : X} (ht : 1 / 1000 ≤ time) :
    0 < N.mul time (rate sr) := by
  have hr := rate_ge (X := X) sr
  have := twenty_le_rnd h (show 20 ≤ time * rate sr by nlinarith)
  exact lt_of_lt_of_le (by norm_num) this

theorem coef_mem (h : N.Lawful) (sr : SampleRate) {time : X} (ht : 1 / 1000 ≤ time) :
    within 0 1 (coef N sr time) := by
  have hexp : N.div (-(22 / 10)) (N.mul time (rate sr)) ≤ 0 :=
    h.rnd_nonpos (div_nonpos_of_nonpos_of_nonneg (by norm_num) (samples_pos h sr ht).le)
  obtain ⟨e0, e1⟩ := h.exp_range _ hexp
  exact ⟨h.rnd_nonneg (sub_nonneg.2 e1), h.rnd_le_one (by linarith)⟩

theorem coef_strict (h : N.Exact) (sr : SampleRate) {time : X} (ht : 1 / 1000 ≤ time) :
    0 < coef N sr time ∧ coef N sr time < 1 := by
  have hexp : N.div (-(22 / 10)) (N.mul time (rate sr)) < 0 := by
    rw [h.div]
    exact div_neg_of_neg_of_pos (by norm_num) (samples_pos h.toLawful sr ht)
  rw [coef, h.sub]
  exact ⟨sub_pos.2 (h.exp_lt_one _ hexp), sub_lt_self _ (h.exp_pos _)⟩

omit [FloorRing X] in
/-- A coefficient in [0, 1] moves nothing out of an interval around 0. -/
theorem mul_mem_of_unit {c x lo hi : X} (hc : within 0 1 c) (hlo : lo ≤ 0) (hhi : 0 ≤ hi) (hx : within lo hi x) :
    within lo hi (c * x) := by
  obtain ⟨c0, c1⟩ := hc
  obtain ⟨x0, x1⟩ := hx
  rcases le_total 0 x with h | h
  · exact ⟨hlo.trans (mul_nonneg c0 h), (mul_le_of_le_one_left h c1).trans x1⟩
  · exact ⟨x0.trans (by nlinarith), (mul_nonpos_of_nonneg_of_nonpos c0 h).trans hhi⟩

theorem approach_nonneg (h : N.Lawful) {c target out : X} (hc : 0 ≤ c) (ho : 0 ≤ out) (ht : out ≤ target) :
    0 ≤ approach N c target out :=
  h.rnd_nonneg (add_nonneg ho (h.rnd_nonneg (mul_nonneg hc (h.rnd_nonneg (sub_nonneg.2 ht)))))

theorem approach_le_one (h : N.Lawful) {c target out : X} (hc : 0 ≤ c) (ho : out ≤ 1) (ht : target ≤ out) :
    approach N c target out ≤ 1 := by
  have : N.mul c (N.sub target out) ≤ 0 :=
    h.rnd_nonpos (mul_nonpos_of_nonneg_of_nonpos hc (h.rnd_nonpos (sub_nonpos.2 ht)))
  exact h.rnd_le_one (by linarith)

/-- From a level that is a number of the format, a step toward any target in [0, 1] stays in [0, 1]: the rounded
difference lies between `−out` and the rounded `1 − out`, and so does its rounded share. -/
theorem approach_mem (h : N.Lawful) {c target out : X} (hc : within 0 1 c) (ht : within 0 1 target)
    (ho : within 0 1 out) (hT : N.inT out) : within 0 1 (approach N c target out) := by
  obtain ⟨t0, t1⟩ := ht
  obtain ⟨o0, o1⟩ := ho
  have hneg : N.rnd (-out) = -out := h.rnd_neg out hT o0 o1
  have hdiff : within (-out) (N.rnd (1 - out)) (N.sub target out) :=
    ⟨hneg ▸ h.rnd_mono _ _ (by linarith), h.rnd_mono _ _ (by linarith)⟩
  obtain ⟨lo, hi⟩ := mul_mem_of_unit hc (neg_nonpos.2 o0) (h.rnd_nonneg (sub_nonneg.2 o1)) hdiff
  have hlo : -out ≤ N.mul c (N.sub target out) := hneg ▸ h.rnd_mono _ _ lo
  have hhi : N.mul c (N.sub target out) ≤ N.rnd (1 - out) := h.rnd_rnd (1 - out) ▸ h.rnd_mono _ _ hi
  exact ⟨h.rnd_nonneg (by linarith),
    (h.rnd_mono _ _ (by linarith)).trans (h.rnd_complement out hT o0 o1)⟩

theorem attackStep_legal (h : N.Lawful) {c out : X} (hc : 0 ≤ c) (ho : within 0 1 out) :
    envLegal N (attackStep N c out) := by
  have h0 : 0 ≤ approach N c (13 / 10) out := approach_nonneg h hc ho.1 (ho.2.trans (by norm_num))
  unfold attackStep
  dsimp only
  split_ifs with hge
  · exact ⟨⟨zero_le_one, le_rfl⟩, nofun, fun _ => h.rnd_one⟩
  · exact ⟨⟨h0, (not_le.1 hge).le⟩, nofun, nofun⟩

theorem decayStep_legal (h : N.Lawful) {c sustain out : X} (hc : within 0 1 c) (hs : within 0 1 sustain)
    (ho : within 0 1 out) (hT : N.inT out) : envLegal N (decayStep N c sustain out) := by
  unfold decayStep
  dsimp only
  split_ifs
  · exact ⟨hs, nofun, nofun⟩
  · exact ⟨approach_mem h hc hs ho hT, nofun, fun _ => h.inT_add _ _⟩

theorem releaseStep_legal (h : N.Lawful) {c out : X} (hc : 0 ≤ c) (ho : within 0 1 out) :
    envLegal N (releaseStep N c out) := by
  unfold releaseStep
  dsimp only
  split_ifs with hle
  · exact ⟨⟨le_rfl, zero_le_one⟩, fun _ => rfl, nofun⟩
  · have h0 : 1 / 1000 < approach N c 0 out := not_le.1 hle
    exact ⟨⟨by linarith, approach_le_one h hc ho.2 ho.1⟩, nofun, nofun⟩

theorem Env.process_legal (h : N.Lawful) (sr : SampleRate) {a : Adsr X} (ha : adsrLegal a) {e : Env X}
    (he : envLegal N e) : envLegal N (e.process N sr a) := by
  obtain ⟨attack, decay, sustain, release⟩ := ha
  obtain ⟨level, idle, inT⟩ := he
  unfold Env.process
  split
  next => exact attackStep_legal h (coef_mem h sr attack.1).1 level
  next hstage => exact decayStep_legal h (coef_mem h sr decay.1) sustain level (inT hstage)
  next => exact ⟨sustain, nofun, nofun⟩
  next => exact releaseStep_legal h (coef_mem h sr release.1).1 level
  next => exact ⟨level, idle, inT⟩

omit [IsStrictOrderedRing X] [FloorRing X] in
theorem Env.noteOn_legal {e : Env X} (he : envLegal N e) : envLegal N e.noteOn := ⟨he.1, nofun, nofun⟩

omit [FloorRing X] [IsStrictOrderedRing X] [LinearOrder X] [Field X] in
theorem Env.noteOff_of_idle {e : Env X} (h : e.stage = .idle) : e.noteOff = e := by
  simp [Env.noteOff, envActive, h]

omit [IsStrictOrderedRing X] [FloorRing X] in
theorem Env.noteOff_legal {e : Env X} (he : envLegal N e) : envLegal N e.noteOff := by
  unfold Env.noteOff
  split
  · exact ⟨he.1, nofun, nofun⟩
  · exact he

omit [IsStrictOrderedRing X] in
theorem Env.kill_legal (e : Env X) : envLegal N e.kill := envLegal_reset

end

/-- Settles O45: the coefficient is a rounded complement of an exponential in [0, 1], each stage's step keeps the
level between 0 and 1, and the three events keep it or put it to 0. -/
theorem envelopeRange : Obligations.EnvelopeRange := by
  intro X _ _ _ _ N sr a e h attack decay sustain release he
  refine ⟨fun time ht => ?_, Env.process_legal h sr ⟨attack, decay, sustain, release⟩ he, Env.noteOn_legal he,
    Env.noteOff_legal he, Env.kill_legal e⟩
  have hmin : 1 / 1000 ≤ time := by
    simp only [List.mem_cons, List.not_mem_nil, or_false] at ht
    rcases ht with rfl | rfl | rfl
    · exact attack.1
    · exact decay.1
    · exact release.1
  exact ⟨coef_mem h sr hmin, fun hE => coef_strict hE sr hmin⟩

end Sys2Proof.Machine

/-! ## Every step from a legal state leads to a legal state (R21, R23 to R34, R61, R184) -/

namespace Sys2Proof

theorem decodeSetp_wellFormed {id : BitVec 8} {val : BitVec 32} {i : Instr} (h : decodeSetp id val = .ok i) :
    i.wellFormed = true := by
  unfold decodeSetp at h
  split at h <;> cases h <;> rfl

/-- The decoder answers well-formed commands only: its operands are fields of the word (R95, R105). -/
theorem decode_wellFormed {w : Word} {i : Instr} (h : decode w = .ok i) : i.wellFormed = true := by
  unfold decode at h
  split at h
  case h_7 => exact decodeSetp_wellFormed h
  all_goals cases h
  all_goals simp [Instr.wellFormed, noteField_lt, indexField_lt]

end Sys2Proof

namespace Sys2Proof.Machine

section

variable {X : Type} [Field X] [LinearOrder X] [IsStrictOrderedRing X] [FloorRing X] {N : Numerics X}

/-! ### Registers -/

/-- CUTOFF's interval is not empty, whichever filter type is in force (R272). -/
theorem twenty_le_cutoffMax (h : N.Lawful) (sr : SampleRate) (P : Params X) : 20 ≤ cutoffMax N sr P := by
  have hr := rate_ge (X := X) sr
  unfold cutoffMax
  split <;> exact twenty_le_rnd h (by linarith)

theorem setCutoff_mem (h : N.Lawful) (sr : SampleRate) (v : X) (P : Params X) :
    within 20 (N.mul (45 / 100) (rate sr)) (Params.setCutoff N sr v P).cutoff := by
  obtain ⟨lo, hi⟩ := clamp_mem (x := v) (twenty_le_cutoffMax h sr P)
  exact ⟨lo, hi.trans (cutoffMax_le h sr P)⟩

omit [FloorRing X] in
theorem setResonance_mem (v : X) (P : Params X) : within 0 1 (Params.setResonance v P).resonance := by
  have h0 : 0 ≤ resonanceMax P := by unfold resonanceMax; split <;> norm_num
  obtain ⟨lo, hi⟩ := clamp_mem (x := v) h0
  exact ⟨lo, hi.trans (resonanceMax_le_one P)⟩

omit [FloorRing X] in
/-- A register clamped to [0, 1]. -/
theorem clamp_unit (v : X) : within 0 1 (clamp v 0 1) := clamp_mem zero_le_one

omit [FloorRing X] in
/-- A time register: seconds of an envelope stage. -/
theorem clamp_time (v : X) : within (1 / 1000) 10 (clamp v (1 / 1000) 10) := clamp_mem (by norm_num)

omit [FloorRing X] in
/-- A rate register: Hz of the LFO or the chorus. -/
theorem clamp_rate (v : X) : within (1 / 100) 100 (clamp v (1 / 100) 100) := clamp_mem (by norm_num)

/-- Every SETP writes a legal parameter file over a legal one, and nothing else (R265). -/
theorem command_setp {i : Instr} (hi : opField (encode i) = 0x06) (h : N.Lawful) {s : StateOf X}
    (hP : paramsLegal N s.cfg.sr s.params) :
    ∃ P, command i N s = s.withParams P ∧ paramsLegal N s.cfg.sr P := by
  obtain ⟨plain, cutoff, resonance⟩ := hP
  cases i with
  | setpMixSine val => exact ⟨_, rfl, { plain with mixSine := clamp_unit _ }, cutoff, resonance⟩
  | setpMixTri val => exact ⟨_, rfl, { plain with mixTri := clamp_unit _ }, cutoff, resonance⟩
  | setpMixSaw val => exact ⟨_, rfl, { plain with mixSaw := clamp_unit _ }, cutoff, resonance⟩
  | setpMixSquare val => exact ⟨_, rfl, { plain with mixSquare := clamp_unit _ }, cutoff, resonance⟩
  | setpMixNoise val => exact ⟨_, rfl, { plain with mixNoise := clamp_unit _ }, cutoff, resonance⟩
  | setpOscMix val => exact ⟨_, rfl, { plain with oscMix := clamp_unit _ }, cutoff, resonance⟩
  | setpCutoff val => exact ⟨_, rfl, { plain with }, setCutoff_mem h _ _ _, resonance⟩
  | setpResonance val => exact ⟨_, rfl, { plain with }, cutoff, setResonance_mem _ _⟩
  | setpDrive val => exact ⟨_, rfl, { plain with drive := clamp_unit _ }, cutoff, resonance⟩
  | setpFilterMode val => exact ⟨_, rfl, { plain with }, cutoff, resonance⟩
  | setpFilterType val => exact ⟨_, rfl, { plain with }, cutoff, resonance⟩
  | setpEnvDepth val => exact ⟨_, rfl, { plain with envDepth := clamp_unit _ }, cutoff, resonance⟩
  | setpAmpAttack val => exact ⟨_, rfl, { plain with ampAttack := clamp_time _ }, cutoff, resonance⟩
  | setpAmpDecay val => exact ⟨_, rfl, { plain with ampDecay := clamp_time _ }, cutoff, resonance⟩
  | setpAmpSustain val => exact ⟨_, rfl, { plain with ampSustain := clamp_unit _ }, cutoff, resonance⟩
  | setpAmpRelease val => exact ⟨_, rfl, { plain with ampRelease := clamp_time _ }, cutoff, resonance⟩
  | setpFltAttack val => exact ⟨_, rfl, { plain with fltAttack := clamp_time _ }, cutoff, resonance⟩
  | setpFltDecay val => exact ⟨_, rfl, { plain with fltDecay := clamp_time _ }, cutoff, resonance⟩
  | setpFltSustain val => exact ⟨_, rfl, { plain with fltSustain := clamp_unit _ }, cutoff, resonance⟩
  | setpFltRelease val => exact ⟨_, rfl, { plain with fltRelease := clamp_time _ }, cutoff, resonance⟩
  | setpSecMode val => exact ⟨_, rfl, { plain with }, cutoff, resonance⟩
  | setpSecIndex val => exact ⟨_, rfl, { plain with secIndex := clamp_unit _ }, cutoff, resonance⟩
  | setpSecRatio val => exact ⟨_, rfl, { plain with secRatio := clamp_unit _ }, cutoff, resonance⟩
  | setpSecShape val => exact ⟨_, rfl, { plain with secShape := clamp_unit _ }, cutoff, resonance⟩
  | setpSecLevel val => exact ⟨_, rfl, { plain with secLevel := clamp_unit _ }, cutoff, resonance⟩
  | setpLfoRate val => exact ⟨_, rfl, { plain with lfoRate := clamp_rate _ }, cutoff, resonance⟩
  | setpLfoRateNorm val => exact ⟨_, rfl, { plain with lfoRate := clamp_rate _ }, cutoff, resonance⟩
  | setpLfoShape val => exact ⟨_, rfl, { plain with }, cutoff, resonance⟩
  | setpLfoDepth val => exact ⟨_, rfl, { plain with lfoDepth := clamp_unit _ }, cutoff, resonance⟩
  | setpMasterVolume val => exact ⟨_, rfl, { plain with masterVolume := clamp_unit _ }, cutoff, resonance⟩
  | setpChorusRate val => exact ⟨_, rfl, { plain with chorusRate := clamp_rate _ }, cutoff, resonance⟩
  | setpChorusDepth val => exact ⟨_, rfl, { plain with chorusDepth := clamp_unit _ }, cutoff, resonance⟩
  | setpChorusMix val => exact ⟨_, rfl, { plain with chorusMix := clamp_unit _ }, cutoff, resonance⟩
  | setpDelayTime val =>
    exact ⟨_, rfl, { plain with delayTime := clamp_mem (by norm_num [delayMaxS]) }, cutoff, resonance⟩
  | setpDelayFeedback val =>
    exact ⟨_, rfl, { plain with delayFeedback := clamp_mem (by norm_num) }, cutoff, resonance⟩
  | setpDelayMix val => exact ⟨_, rfl, { plain with delayMix := clamp_unit _ }, cutoff, resonance⟩
  | setpReverbDecay val =>
    exact ⟨_, rfl, { plain with reverbDecay := clamp_mem (by norm_num) }, cutoff, resonance⟩
  | setpReverbMix val => exact ⟨_, rfl, { plain with reverbMix := clamp_unit _ }, cutoff, resonance⟩
  | _ => simp [encode] at hi

/-- A preset's 18 registers are clamped as by their SETP (R220). -/
theorem applyPreset_legal (h : N.Lawful) {sr : SampleRate} (r : Preset X) {P : Params X}
    (hP : paramsLegal N sr P) : paramsLegal N sr (Params.applyPreset N sr r P) where
  left := { hP.1 with
    mixSine := clamp_unit _, mixTri := clamp_unit _, mixSaw := clamp_unit _, mixSquare := clamp_unit _
    mixNoise := clamp_unit _, drive := clamp_unit _, envDepth := clamp_unit _, masterVolume := clamp_unit _
    ampAttack := clamp_time _, ampDecay := clamp_time _, ampSustain := clamp_unit _, ampRelease := clamp_time _
    fltAttack := clamp_time _, fltDecay := clamp_time _, fltSustain := clamp_unit _, fltRelease := clamp_time _ }
  right := ⟨setCutoff_mem h sr r.cutoff _, setResonance_mem r.resonance _⟩

/-- A frequency that is not negative gives a phase increment that is not (R27, R111). -/
theorem div_rate_nonneg (h : N.Lawful) (sr : SampleRate) {f : X} (hf : 0 ≤ f) : 0 ≤ N.div f (rate sr) :=
  h.rnd_nonneg (div_nonneg hf (rate_pos sr).le)

/-! ### Voices -/

omit [IsStrictOrderedRing X] [FloorRing X] in
/-- The ladder stages are soft clips, the state-variable core leaves them as they are (R175, R184). -/
theorem Filter.process_legal (sr : SampleRate) (P : Params X) (x fc : X) {f : Filter X} (hf : filterLegal N f) :
    filterLegal N (f.process N sr P x fc).2 := by
  intro hclip
  unfold Filter.process
  split
  · exact hf hclip
  · exact ⟨hclip _, hclip _, hclip _, hclip _⟩

theorem Voice.process_legal (h : N.Lawful) (c : Cfg X) {P : Params X} (hP : PlainLegal P) (m : X) {v : Voice X}
    (hv : voiceLegal N v) (hactive : v.active = true) : voiceLegal N (v.process N c P m).2 := by
  obtain ⟨note, vel, ⟨⟨ph1, -⟩, inc1⟩, ⟨⟨ph2, -⟩, inc2⟩, ⟨⟨ph3, -⟩, inc3⟩, flt, aenv, fenv, -⟩ := hv
  exact ⟨note, vel, ⟨advance_mem h ph1 inc1, inc1⟩, ⟨advance_mem h ph2 inc2, inc2⟩, ⟨advance_mem h ph3 inc3, inc3⟩,
    Filter.process_legal c.sr P _ _ flt, Env.process_legal h c.sr (ampAdsr_legal hP) aenv,
    Env.process_legal h c.sr (fltAdsr_legal hP) fenv, fun hoff => by simp [hactive] at hoff⟩

theorem noteFrequency_nonneg (h : N.Lawful) (note : Nat) : 0 ≤ noteFrequency N note :=
  h.rnd_nonneg (mul_nonneg (by norm_num) (h.exp2_nonneg _))

theorem Voice.noteOn_legal (h : N.Lawful) (sr : SampleRate) {note : Nat} (hnote : note < 128) {vel : X}
    (hvel : within 0 1 vel) {v : Voice X} (hv : voiceLegal N v) : voiceLegal N (v.noteOn N sr note vel) := by
  obtain ⟨-, -, ⟨ph1, -⟩, ⟨ph2, -⟩, ⟨ph3, -⟩, -, aenv, fenv, -⟩ := hv
  have hf := noteFrequency_nonneg h note
  have hdetuned : 0 ≤ N.mul (noteFrequency N note) detune := h.rnd_nonneg (mul_nonneg hf (by norm_num [detune]))
  exact ⟨hnote, hvel, ⟨ph1, div_rate_nonneg h sr hf⟩, ⟨ph2, div_rate_nonneg h sr hdetuned⟩,
    ⟨ph3, div_rate_nonneg h sr hf⟩, filterLegal_zero, Env.noteOn_legal aenv, Env.noteOn_legal fenv, nofun⟩

omit [IsStrictOrderedRing X] in
theorem Voice.kill_legal {v : Voice X} (hv : voiceLegal N v) : voiceLegal N v.kill := by
  obtain ⟨note, vel, osc1, osc2, sec, flt, -, -, -⟩ := hv
  exact ⟨note, vel, osc1, osc2, sec, flt, Env.kill_legal v.aenv, Env.kill_legal v.fenv, fun _ => ⟨rfl, rfl⟩⟩

omit [IsStrictOrderedRing X] [FloorRing X] in
theorem Voice.noteOff_legal {v : Voice X} (hv : voiceLegal N v) : voiceLegal N v.noteOff := by
  obtain ⟨note, vel, osc1, osc2, sec, flt, aenv, fenv, idle⟩ := hv
  refine ⟨note, vel, osc1, osc2, sec, flt, Env.noteOff_legal aenv, Env.noteOff_legal fenv, fun hoff => ?_⟩
  obtain ⟨hamp, hflt⟩ := idle hoff
  rw [Voice.noteOff_aenv, Voice.noteOff_fenv, Env.noteOff_of_idle hamp, Env.noteOff_of_idle hflt]
  exact ⟨hamp, hflt⟩

omit [IsStrictOrderedRing X] [FloorRing X] in
/-- A release keeps a voice legal, of the voices it reaches and of the others (R218, R219). -/
theorem ite_noteOff_legal {p : Prop} [Decidable p] {v : Voice X} (hv : voiceLegal N v) :
    voiceLegal N (if p then v.noteOff else v) := by
  split
  · exact Voice.noteOff_legal hv
  · exact hv

theorem allocate_legal (h : N.Lawful) (sr : SampleRate) {note : Nat} (hnote : note < 128) {vel : X}
    (hvel : within 0 1 vel) {vs : List (Voice X)} (hvs : ∀ v ∈ vs, voiceLegal N v) :
    ∀ u ∈ allocate N sr note vel vs, voiceLegal N u := by
  intro u hu
  rcases mem_allocate hu with hu | ⟨v, hv, rfl | rfl⟩
  · exact hvs u hu
  · exact Voice.noteOn_legal h sr hnote hvel (hvs v hv)
  · exact Voice.noteOn_legal h sr hnote hvel (Voice.kill_legal (hvs v hv))

/-- What a tick makes of one voice, from the configuration, the registers and the LFO (R206, R221). -/
def tickVoice (N : Numerics X) (c : Cfg X) (P : Params X) (l : Lfo X) (v : Voice X) : Voice X :=
  if voiceActive v then (v.process N c P (N.mul (l.process N c.sr P).1 P.lfoDepth)).2 else v

omit [IsStrictOrderedRing X] in
/-- A tick treats the voices of the pool one by one (R221, R332). -/
theorem monoTick_voices (N : Numerics X) (s : StateOf X) :
    (monoTick N s).2.2 = s.voices.map (tickVoice N s.cfg s.params s.lfo) := by
  rw [monoTick, sumVoices_eq]
  rfl

theorem tickVoice_legal (h : N.Lawful) (c : Cfg X) {P : Params X} (hP : PlainLegal P) (l : Lfo X) {v : Voice X}
    (hv : voiceLegal N v) : voiceLegal N (tickVoice N c P l v) := by
  unfold tickVoice
  split
  next hactive => exact Voice.process_legal h c hP _ hv ((voiceActive_iff v).1 hactive).1
  next => exact hv

/-! ### The LFO and the effects -/

theorem Lfo.process_legal (h : N.Lawful) (sr : SampleRate) {P : Params X} (hP : PlainLegal P) {l : Lfo X}
    (hl : lfoLegal l) : lfoLegal (l.process N sr P).2 := by
  obtain ⟨⟨ph, -⟩, held⟩ := hl
  have hrate : 0 ≤ P.lfoRate := le_trans (by norm_num) hP.lfoRate.1
  exact ⟨Lfo.process_phase N sr P l ▸ lfoNextPhase_isPhase sr (.inr ⟨h, hrate⟩) ph, Lfo.process_held_mem h sr P held⟩

omit [IsStrictOrderedRing X] [FloorRing X] in
theorem bufWrite_legal {n : Nat} (hn : 0 < n) {b : Memory X} (hb : ringLegal n b) (k : Int) (v : X) :
    ringLegal n (bufWrite n b k v) := ⟨bufWrite_wf hb.1 k v, bufWrite_fits hn hb.2 k v⟩

theorem Chorus.process_legal (h : N.Lawful) (sr : SampleRate) {P : Params X} (hP : PlainLegal P) (x : Frame X)
    {c : Chorus X} (hc : chorusLegal c) : chorusLegal (c.process N sr P x).2 := by
  obtain ⟨bufL, bufR, -, ⟨phL, -⟩, ⟨phR, -⟩⟩ := hc
  have hlen : 0 < chorusLen := by decide
  have hrate : 0 ≤ P.chorusRate := le_trans (by norm_num) hP.chorusRate.1
  have hdetuned : 0 ≤ N.mul chorusDetune P.chorusRate :=
    h.rnd_nonneg (mul_nonneg (by norm_num [chorusDetune]) hrate)
  exact ⟨bufWrite_legal hlen bufL _ _, bufWrite_legal hlen bufR _ _, advancePos_lt hlen _,
    advance_mem h phL (div_rate_nonneg h sr hrate), advance_mem h phR (div_rate_nonneg h sr hdetuned)⟩

omit [IsStrictOrderedRing X] in
theorem Delay.process_legal (sr : SampleRate) (P : Params X) (x : Frame X) {d : Delay X} (hd : delayLegal sr d) :
    delayLegal sr (d.process N sr P x).2 := by
  obtain ⟨bufL, bufR, -⟩ := hd
  have hlen := delayLen_pos sr
  exact ⟨bufWrite_legal hlen bufL _ _, bufWrite_legal hlen bufR _ _, advancePos_lt hlen _⟩

omit [IsStrictOrderedRing X] [FloorRing X] in
theorem combStep_legal {n : Nat} (hn : 0 < n) (feedback x : X) {c : Line X} (hc : lineLegal n c) :
    lineLegal n (combStep N n feedback x c).2 := ⟨bufWrite_legal hn hc.1 _ _, advancePos_lt hn _⟩

omit [IsStrictOrderedRing X] [FloorRing X] in
theorem allpassStep_legal {n : Nat} (hn : 0 < n) (y : X) {a : Line X} (ha : lineLegal n a) :
    lineLegal n (allpassStep N n y a).2 := ⟨bufWrite_legal hn ha.1 _ _, advancePos_lt hn _⟩

omit [IsStrictOrderedRing X] [FloorRing X] in
theorem Reverb.process_legal (P : Params X) (x : Frame X) {v : Reverb X} (hv : reverbLegal v) :
    reverbLegal (v.process N P x).2 := by
  obtain ⟨comb0, comb1, comb2, comb3, ap0, ap1⟩ := hv
  exact ⟨combStep_legal (by decide) _ _ comb0, combStep_legal (by decide) _ _ comb1,
    combStep_legal (by decide) _ _ comb2, combStep_legal (by decide) _ _ comb3,
    allpassStep_legal (by decide) _ ap0, allpassStep_legal (by decide) _ ap1⟩

omit [IsStrictOrderedRing X] [FloorRing X] in
theorem Chorus.clear_legal {c : Chorus X} (hc : chorusLegal c) : chorusLegal c.clear :=
  ⟨ringLegal_empty _, ringLegal_empty _, hc.2.2⟩

omit [IsStrictOrderedRing X] [FloorRing X] in
theorem Delay.clear_legal {sr : SampleRate} {d : Delay X} (hd : delayLegal sr d) : delayLegal sr d.clear :=
  ⟨ringLegal_empty _, ringLegal_empty _, hd.2.2⟩

omit [IsStrictOrderedRing X] [FloorRing X] in
theorem Line.clear_legal {n : Nat} {l : Line X} (hl : lineLegal n l) : lineLegal n l.clear :=
  ⟨ringLegal_empty n, hl.2⟩

omit [IsStrictOrderedRing X] [FloorRing X] in
theorem Reverb.clear_legal {v : Reverb X} (hv : reverbLegal v) : reverbLegal v.clear := by
  obtain ⟨comb0, comb1, comb2, comb3, ap0, ap1⟩ := hv
  exact ⟨Line.clear_legal comb0, Line.clear_legal comb1, Line.clear_legal comb2, Line.clear_legal comb3,
    Line.clear_legal ap0, Line.clear_legal ap1⟩

/-! ### Commands and steps -/

variable {num : NumFormat → Numerics X} {s : StateOf X}

theorem cmdTick_legal (h : (num s.cfg.num).Lawful) (hs : s.Legal num) :
    (cmdTick (num s.cfg.num) s).Legal num :=
  { hs with
    pool := by
      show (monoTick (num s.cfg.num) s).2.2.length = s.cfg.nv
      rw [monoTick_voices, List.length_map, hs.pool]
    lfo := Lfo.process_legal h s.cfg.sr hs.params.1 hs.lfo
    voices := by
      show ∀ v ∈ (monoTick (num s.cfg.num) s).2.2, voiceLegal (num s.cfg.num) v
      rw [monoTick_voices]
      exact List.forall_mem_map.2 fun v hv => tickVoice_legal h s.cfg hs.params.1 s.lfo (hs.voices v hv)
    chorus := Chorus.process_legal h s.cfg.sr hs.params.1 _ hs.chorus
    delay := Delay.process_legal s.cfg.sr s.params _ hs.delay
    reverb := Reverb.process_legal s.params _ hs.reverb }

theorem cmdLoadPreset_legal (index : Nat) (h : (num s.cfg.num).Lawful) (hs : s.Legal num) :
    (cmdLoadPreset index (num s.cfg.num) s).Legal num := by
  unfold cmdLoadPreset
  split
  next => exact hs
  next r hr =>
    refine { hs with params := applyPreset_legal h r hs.params, presetIndex := ?_ }
    rintro i ⟨⟩
    exact (List.getElem?_eq_some_iff.1 hr).1

omit [IsStrictOrderedRing X] [FloorRing X] in
theorem cmdFxClear_legal (mask : BitVec 3) (hs : s.Legal num) : (cmdFxClear mask (num s.cfg.num) s).Legal num := by
  refine { hs with chorus := ?_, delay := ?_, reverb := ?_ } <;> unfold cmdFxClear <;> dsimp only <;> split
  · exact Chorus.clear_legal hs.chorus
  · exact hs.chorus
  · exact Delay.clear_legal hs.delay
  · exact hs.delay
  · exact Reverb.clear_legal hs.reverb
  · exact hs.reverb

/-- Every well-formed command keeps the legal states. -/
theorem command_legal (h : (num s.cfg.num).Lawful) (hs : s.Legal num) {i : Instr} (hi : i.wellFormed = true) :
    (command i (num s.cfg.num) s).Legal num := by
  cases i using Instr.casesBySetp with
  | setp i hop =>
    obtain ⟨P, hP, legal⟩ := command_setp hop h hs.params
    rw [hP]
    exact { hs with params := legal }
  | nop => exact hs
  | tick => exact cmdTick_legal h hs
  | noteOn note velocity =>
    exact { hs with
      pool := (allocate_length ..).trans hs.pool
      voices := allocate_legal h s.cfg.sr (of_decide_eq_true hi) (clamp_unit _) hs.voices }
  | noteOff note =>
    exact { hs with
      pool := (List.length_map _).trans hs.pool
      voices := List.forall_mem_map.2 fun v hv => ite_noteOff_legal (hs.voices v hv) }
  | allNotesOff =>
    exact { hs with
      pool := (List.length_map _).trans hs.pool
      voices := List.forall_mem_map.2 fun v hv => ite_noteOff_legal (hs.voices v hv) }
  | loadPreset index => exact cmdLoadPreset_legal index h hs
  | lfoSync => exact { hs with lfo := ⟨isPhase_zero, hs.lfo.2⟩ }
  | fxClear mask => exact cmdFxClear_legal mask hs

theorem StateOf.step_legal (h : ∀ f, (num f).Lawful) (hs : s.Legal num) : (s.step num).Legal num := by
  unfold StateOf.step
  split
  next => exact hs
  next c rest hstream =>
    have hc : cfgLegal (num c.num) c := hs.stream (.reset c) (by simp [hstream]) c rfl
    exact { resetWith_legal (h c.num) hc with
      stream := fun e he => hs.stream e (by rw [hstream]; exact List.mem_cons_of_mem _ he) }
  next w rest hstream =>
    have consumed : StateOf.Legal num { s with stream := rest } :=
      { hs with stream := fun e he => hs.stream e (by rw [hstream]; exact List.mem_cons_of_mem _ he) }
    split
    next i hi => exact command_legal (s := { s with stream := rest }) (h _) consumed (decode_wellFormed hi)
    next => exact consumed

end

/-- Settles O60: each command writes legal values over a legal state, an asserted reset samples a legal
configuration, and a reserved word only leaves the stream. -/
theorem stepKeepsLegal : Obligations.StepKeepsLegal := by
  refine ⟨fun s t hs ht => ?_, fun _ _ _ _ _ num s h hs => StateOf.step_legal h hs⟩
  cases (step_eq_step s).symm.trans ht
  exact StateOf.step_legal Config.num_lawful hs

end Sys2Proof.Machine

/-! ## The voices do not interact (R21, R332) -/

namespace Sys2Proof.Machine

theorem exec_tick_voices {s t : State} (h : exec .tick s = .next t) :
    t.voices = s.voices.map (tickVoice s.num s.cfg s.params s.lfo) := by
  cases (exec_tick s).symm.trans h
  exact monoTick_voices s.num s.toStateOf

/-- Settles O29: a tick maps over the pool a function of the configuration, the registers and the LFO. -/
theorem voicesDoNotInteract : Obligations.VoicesDoNotInteract := by
  intro s s' t t' i hcfg hparams hlfo hvoice ht ht'
  have hnum : s.num = s'.num := by rw [State.num, State.num, hcfg]
  rw [exec_tick_voices ht, exec_tick_voices ht', List.getElem?_map, List.getElem?_map, hvoice, hnum, hcfg, hparams,
    hlfo]

end Sys2Proof.Machine

/-! ## Silence before the first note (R36, R221, R341) -/

namespace Sys2Proof.Machine

section

variable {X : Type} [Field X]

/-- Every ring of the chorus empty. -/
structure Chorus.Silent (c : Chorus X) : Prop where
  bufL : c.bufL = Memory.empty
  bufR : c.bufR = Memory.empty

/-- Every ring of the delay empty. -/
structure Delay.Silent (d : Delay X) : Prop where
  bufL : d.bufL = Memory.empty
  bufR : d.bufR = Memory.empty

/-- Every ring of the reverb empty. -/
structure Reverb.Silent (v : Reverb X) : Prop where
  comb0 : v.comb0.buf = Memory.empty
  comb1 : v.comb1.buf = Memory.empty
  comb2 : v.comb2.buf = Memory.empty
  comb3 : v.comb3.buf = Memory.empty
  ap0 : v.ap0.buf = Memory.empty
  ap1 : v.ap1.buf = Memory.empty

/-- No voice sounds, every ring is empty, and every frame so far was (0, 0). -/
structure StateOf.Silent (s : StateOf X) : Prop where
  voices : ∀ v ∈ s.voices, voiceActive v = false
  chorus : s.chorus.Silent
  delay : s.delay.Silent
  reverb : s.reverb.Silent
  frames : ∀ f ∈ s.frames, f = ⟨0, 0⟩

theorem resetWith_silent (c : Cfg X) : (StateOf.resetWith c).Silent where
  voices := List.forall_mem_map.2 fun _ _ => rfl
  chorus := ⟨rfl, rfl⟩
  delay := ⟨rfl, rfl⟩
  reverb := ⟨rfl, rfl, rfl, rfl, rfl, rfl⟩
  frames := nofun

variable [LinearOrder X] [IsStrictOrderedRing X] [FloorRing X] {N : Numerics X}

/-! ### Silence in, silence out: each effect with empty rings answers 0 and stores 0 -/

theorem chorusChannel_zero (h : N.Lawful) (sr : SampleRate) (P : Params X) (w : Nat) (lfoRate ph : X) :
    chorusChannel N sr P w lfoRate 0 Memory.empty ph =
      (0, Memory.empty, wrap1 N (N.add ph (N.div lfoRate (rate sr)))) := by
  simp only [chorusChannel, bufWrite_empty_zero, fracRead_empty h, crossfade_zeros h]

theorem Chorus.process_zero (h : N.Lawful) (sr : SampleRate) (P : Params X) {c : Chorus X} (hc : c.Silent) :
    (c.process N sr P ⟨0, 0⟩).1 = ⟨0, 0⟩ ∧ (c.process N sr P ⟨0, 0⟩).2.Silent := by
  obtain ⟨bufL, bufR⟩ := hc
  simp only [Chorus.process, bufL, bufR, chorusChannel_zero h]
  exact ⟨trivial, rfl, rfl⟩

theorem delayChannel_zero (h : N.Lawful) (sr : SampleRate) (P : Params X) (w : Nat) :
    delayChannel N sr P w 0 Memory.empty = (0, Memory.empty) := by
  simp [delayChannel, crossfade_zeros h, Numerics.add, Numerics.mul, h.rnd_zero]

theorem Delay.process_zero (h : N.Lawful) (sr : SampleRate) (P : Params X) {d : Delay X} (hd : d.Silent) :
    (d.process N sr P ⟨0, 0⟩).1 = ⟨0, 0⟩ ∧ (d.process N sr P ⟨0, 0⟩).2.Silent := by
  obtain ⟨bufL, bufR⟩ := hd
  simp only [Delay.process, bufL, bufR, delayChannel_zero h]
  exact ⟨trivial, rfl, rfl⟩

theorem combStep_zero (h : N.Lawful) (len : Nat) (feedback : X) {c : Line X} (hc : c.buf = Memory.empty) :
    combStep N len feedback 0 c = (0, ⟨Memory.empty, advancePos len c.pos⟩) := by
  simp [combStep, hc, Numerics.add, Numerics.mul, h.rnd_zero]

theorem allpassStep_zero (h : N.Lawful) (len : Nat) {a : Line X} (ha : a.buf = Memory.empty) :
    allpassStep N len 0 a = (0, ⟨Memory.empty, advancePos len a.pos⟩) := by
  simp [allpassStep, ha, Numerics.add, Numerics.mul, h.rnd_zero]

theorem Reverb.network_zero (h : N.Lawful) (P : Params X) {v : Reverb X} (hv : v.Silent) :
    (v.network N P 0).1 = 0 ∧ (v.network N P 0).2.Silent := by
  obtain ⟨comb0, comb1, comb2, comb3, ap0, ap1⟩ := hv
  have hy : N.mul (N.add (N.add (N.add (N.add 0 0) 0) 0) 0) (1 / 4) = 0 := by
    simp [Numerics.add, Numerics.mul, h.rnd_zero]
  simp only [Reverb.network, combStep_zero h _ _ comb0, combStep_zero h _ _ comb1, combStep_zero h _ _ comb2,
    combStep_zero h _ _ comb3, hy, allpassStep_zero h _ ap0, allpassStep_zero h _ ap1]
  exact ⟨trivial, rfl, rfl, rfl, rfl, rfl, rfl⟩

theorem Reverb.process_zero (h : N.Lawful) (P : Params X) {v : Reverb X} (hv : v.Silent) :
    (v.process N P ⟨0, 0⟩).1 = ⟨0, 0⟩ ∧ (v.process N P ⟨0, 0⟩).2.Silent := by
  have hx : N.mul (N.add 0 0) (1 / 2) = 0 := by simp [Numerics.add, Numerics.mul, h.rnd_zero]
  obtain ⟨wet, rest⟩ := Reverb.network_zero h P hv
  simp only [Reverb.process, hx, wet, crossfade_zeros h]
  exact ⟨trivial, rest⟩

omit [IsStrictOrderedRing X] in
theorem tickVoice_of_not_active (c : Cfg X) (P : Params X) (l : Lfo X) {v : Voice X} (hv : voiceActive v = false) :
    tickVoice N c P l v = v := by simp [tickVoice, hv]

theorem monoTick_zero (h : N.Lawful) {s : StateOf X} (hs : s.Silent) : (monoTick N s).1 = 0 := by
  have hnone : s.voices.filter voiceActive = [] := List.filter_eq_nil_iff.2 fun v hv => by simp [hs.voices v hv]
  simp [monoTick, sumVoices_eq, hnone, Numerics.mul, h.rnd_zero]

theorem effectsTick_zero (h : N.Lawful) {s : StateOf X} (hs : s.Silent) :
    (effectsTick N s ⟨0, 0⟩).1 = ⟨0, 0⟩ ∧ (effectsTick N s ⟨0, 0⟩).2.1.Silent
      ∧ (effectsTick N s ⟨0, 0⟩).2.2.1.Silent ∧ (effectsTick N s ⟨0, 0⟩).2.2.2.Silent := by
  obtain ⟨chorusOut, chorus⟩ := Chorus.process_zero h s.cfg.sr s.params hs.chorus
  obtain ⟨delayOut, delay⟩ := Delay.process_zero h s.cfg.sr s.params hs.delay
  obtain ⟨reverbOut, reverb⟩ := Reverb.process_zero h s.params hs.reverb
  simp only [effectsTick, chorusOut, delayOut]
  exact ⟨reverbOut, chorus, delay, reverb⟩

theorem cmdTick_silent (h : N.Lawful) {s : StateOf X} (hs : s.Silent) : (cmdTick N s).Silent := by
  obtain ⟨out, chorus, delay, reverb⟩ := effectsTick_zero h hs
  have hvoices : (monoTick N s).2.2 = s.voices := by
    rw [monoTick_voices]
    exact (List.map_congr_left fun v hv => tickVoice_of_not_active _ _ _ (hs.voices v hv)).trans (List.map_id' _)
  simp only [cmdTick, tick, monoTick_zero h hs, hvoices, out]
  exact {
    voices := hs.voices
    chorus := chorus
    delay := delay
    reverb := reverb
    frames := List.forall_mem_append.2 ⟨hs.frames, List.forall_mem_singleton.2 rfl⟩ }

omit [LinearOrder X] [IsStrictOrderedRing X] [FloorRing X] [Field X] in
/-- A release starts no voice (R203). -/
theorem voiceActive_ite_noteOff {p : Prop} [Decidable p] {v : Voice X} (hv : voiceActive v = false) :
    voiceActive (if p then v.noteOff else v) = false := by
  split
  · cases hactive : v.active
    · simp [voiceActive, hactive]
    · have hidle : v.aenv.stage = .idle := by simpa [voiceActive, envActive, hactive] using hv
      simp [voiceActive, envActive, Env.noteOff_of_idle hidle, hidle]
  · exact hv

end

/-- Only `NOTE_ON` breaks the silence: SETP, presets, releases and clears make no sound. -/
theorem exec_silent {i : Instr} (hi : ∀ n x, i ≠ .noteOn n x) {s t : State} (hs : s.toStateOf.Silent)
    (ht : exec i s = .next t) : t.toStateOf.Silent := by
  cases i using Instr.casesBySetp with
  | setp i hop =>
    obtain ⟨P, hP⟩ := exec_setp hop s
    cases hP.symm.trans ht
    exact { hs with }
  | nop => cases (exec_nop s).symm.trans ht; exact hs
  | tick => cases (exec_tick s).symm.trans ht; exact cmdTick_silent (Config.num_lawful _) hs
  | noteOn note velocity => exact absurd rfl (hi note velocity)
  | noteOff note =>
    cases (exec_noteOff note s).symm.trans ht
    exact { hs with voices := List.forall_mem_map.2 fun v hv => voiceActive_ite_noteOff (hs.voices v hv) }
  | allNotesOff =>
    cases (exec_allNotesOff s).symm.trans ht
    exact { hs with voices := List.forall_mem_map.2 fun v hv => voiceActive_ite_noteOff (hs.voices v hv) }
  | loadPreset index =>
    obtain ⟨P, o, hP⟩ := exec_loadPreset index s
    cases hP.symm.trans ht
    exact { hs with }
  | lfoSync => cases (exec_lfoSync s).symm.trans ht; exact { hs with }
  | fxClear mask =>
    cases (exec_fxClear mask s).symm.trans ht
    refine { hs with chorus := ?_, delay := ?_, reverb := ?_ } <;> dsimp only <;> split
    · exact ⟨rfl, rfl⟩
    · exact hs.chorus
    · exact ⟨rfl, rfl⟩
    · exact hs.delay
    · exact ⟨rfl, rfl, rfl, rfl, rfl, rfl⟩
    · exact hs.reverb

/-- A property that every element of a list keeps holds after the run of the whole list. -/
theorem foldlM_invariant {σ ι : Type} {f : σ → ι → Option σ} {Inv : σ → Prop} : ∀ {is : List ι} {s t : σ},
    (∀ i ∈ is, ∀ s t, Inv s → f s i = some t → Inv t) → Inv s → is.foldlM f s = some t → Inv t
  | [], s, t, _, hs, h => by cases h; exact hs
  | i :: is, s, t, hstep, hs, h => by
    rw [List.foldlM_cons] at h
    obtain ⟨u, hu, h⟩ := Option.bind_eq_some_iff.1 h
    exact foldlM_invariant (fun j hj => hstep j (List.mem_cons_of_mem _ hj))
      (hstep i List.mem_cons_self s u hs hu) h

/-- Settles O30: silence holds at reset, every command but `NOTE_ON` keeps it, and it speaks of every frame. -/
theorem silentUntilNoteOn : Obligations.SilentUntilNoteOn := by
  intro c commands t hcommands hrun
  refine StateOf.Silent.frames (s := t.toStateOf) (foldlM_invariant (Inv := fun s => s.toStateOf.Silent) ?_
    (resetWith_silent c) hrun)
  intro i hi s u hs hu
  obtain ⟨u', hu'⟩ := exec_completes i s
  rw [hu'] at hu
  cases hu
  exact exec_silent (hcommands i hi) hs hu'

end Sys2Proof.Machine

/-! ## The reset values (R31) -/

namespace Sys2Proof.Machine

theorem resetWith_getElem?_voices (c : Cfg Scalar) {i : Nat} (hi : i < c.nv) :
    (State.resetWith c).voices[i]? = some (Voice.reset c i) := by
  simp [hi]

/-- Settles O9: the reset state is written out by `StateOf.resetWith`, its voices by `Voice.reset`, its rings by
`Memory.empty`. -/
theorem resetValues : Obligations.ResetValues := by
  intro c
  refine ⟨rfl, rfl, rfl, ⟨rfl, rfl, rfl⟩, by simp, fun i hi => ?_, fun a => ?_, ?_, rfl, rfl⟩
  · exact ⟨_, resetWith_getElem?_voices c hi, rfl, rfl, rfl, rfl, rfl, rfl, rfl, rfl, rfl⟩
  · simp [Line.reset]
  · simp [Line.reset]

end Sys2Proof.Machine

/-! Proofs of the family 20_memory: what a ring reads after a write (O51), the fractional read (O52), the read offsets
(O53), what a tick stores in each ring (O27), the ring positions (O28), the echo (O56), the step that runs the decoded
command (O7), with the lemmas they rest on. -/

/-! ## Ring accesses (R62 to R64) -/

namespace Sys2Proof.Machine

/-- Indices that agree modulo the length name the same element (R62). -/
theorem ringIndex_congr {n : Nat} {k j : Int} (h : k % n = j % n) : ringIndex n k = ringIndex n j := by
  rw [ringIndex, ringIndex, h]

theorem ringIndex_inj {n : Nat} (hn : 0 < n) {k j : Int} (h : ringIndex n k = ringIndex n j) : k % n = j % n := by
  have hn' : (n : Int) ≠ 0 := by omega
  have hk := Int.emod_nonneg k hn'
  have hj := Int.emod_nonneg j hn'
  unfold ringIndex at h
  omega

/-- An offset strictly between 0 and the length never names the element it is taken from (R77). -/
theorem sub_emod_ne {n m : Int} (h0 : 0 < m) (hn : m < n) (w : Int) : (w - m) % n ≠ w % n := fun h => by
  have hdvd : n ∣ w - (w - m) := Int.ModEq.dvd h
  rw [sub_sub_cancel] at hdvd
  exact absurd (Int.le_of_dvd h0 hdvd) (not_le.2 hn)

section

variable {X : Type} [Field X]

theorem bufRead_natCast (n : Nat) (b : Memory X) (p : Nat) : bufRead n b p = b.read (p % n) := by
  rw [bufRead, ringIndex_natCast]

theorem bufRead_congr {n : Nat} (b : Memory X) {k j : Int} (h : k % n = j % n) : bufRead n b k = bufRead n b j := by
  rw [bufRead, bufRead, ringIndex_congr h]

variable [LinearOrder X]

theorem bufRead_bufWrite_same {n : Nat} {b : Memory X} (h : b.wf = true) (k : Int) (v : X) :
    bufRead n (bufWrite n b k v) k = v := bufWrite_read_same h k v

theorem bufRead_bufWrite_other {n : Nat} (hn : 0 < n) (b : Memory X) {k j : Int} (h : j % n ≠ k % n) (v : X) :
    bufRead n (bufWrite n b k v) j = bufRead n b j :=
  bufWrite_read_other b (fun e => h (ringIndex_inj hn e)) v

variable [IsStrictOrderedRing X] [FloorRing X] {N : Numerics X}

/-- An integer offset has no fractional part to interpolate with (R64). -/
theorem fracRead_natCast (h : N.Lawful) (n : Nat) (b : Memory X) (w k : Nat)
    (ha : N.inT (bufRead n b ((w : Int) - k))) : fracRead N n b w (k : X) = bufRead n b ((w : Int) - k) := by
  have e : N.rnd (bufRead n b ((w : Int) - k)) = bufRead n b ((w : Int) - k) := ha
  simp [fracRead, floor_eq, Numerics.add, Numerics.mul, Numerics.sub, h.rnd_zero, e]

end

/-- Settles O51: an access and a write see an index only modulo the length, and the laws of `Memory` do the rest. -/
theorem ringAccess : Obligations.RingAccess := by
  intro X _ _ n b k j v hn hwf hfits
  refine ⟨bufRead_bufWrite_same hwf k v, fun hkj => bufRead_bufWrite_other hn b (fun h => hkj ?_) v,
    bufRead_congr b (Int.add_emod_right k n), bufWrite_wf hwf k v, bufWrite_fits hn hfits k v⟩
  exact Int.emod_eq_emod_iff_emod_sub_eq_zero.1 h.symm

/-- Settles O52: the formula is the definition's; at an integer offset its second term is 0. -/
theorem fractionalRead : Obligations.FractionalRead := by
  intro X _ _ _ _ N n b w d a c
  refine ⟨rfl, ?_⟩
  rintro hN ha k rfl
  simp only [a, Int.floor_natCast] at ha ⊢
  exact fracRead_natCast hN n b w k ha

end Sys2Proof.Machine

/-! ## The read offsets of the chorus and the delay (R77, R241, R245) -/

namespace Sys2Proof.Machine

section

variable {X : Type} [Field X] [LinearOrder X] [FloorRing X] {N : Numerics X}

theorem delaySamples_mem (N : Numerics X) (sr : SampleRate) (P : Params X) :
    1 ≤ delaySamples N sr P ∧ delaySamples N sr P ≤ 2 * (sr.hz : Int) - 1 := by
  have hlen : (delayLen sr : Int) = 2 * sr.hz := by rw [delayLen_eq]; push_cast; rfl
  rw [delaySamples, hlen]
  exact clamp_mem (by cases sr <;> decide)

variable [IsStrictOrderedRing X]

/-- The product of a depth in [0, 1] and a sine stays in [−1, 1]. -/
theorem depth_mul_sine_mem (h : N.Lawful) {depth : X} (hd : within 0 1 depth) (ph : X) :
    within (-1) 1 (depth * sineWave N ph) := by
  obtain ⟨hs0, hs1⟩ := h.sin_range (radians N ph)
  obtain ⟨hd0, hd1⟩ := hd
  exact abs_le.1 ((abs_mul _ _).trans_le (mul_le_one₀ (abs_le.2 ⟨by linarith, hd1⟩) (abs_nonneg _)
    (abs_le.2 ⟨hs0, hs1⟩)))

/-- Where nothing is rounded the chorus reads between 4 and 10 milliseconds back (R77). -/
theorem chorusOffset_mem (h : N.Exact) (sr : SampleRate) {P : Params X} (hP : within 0 1 P.chorusDepth) (ph : X) :
    within (4 / 1000 * (sr.hz : X)) (10 / 1000 * sr.hz) (chorusOffset N sr P ph) := by
  obtain ⟨h0, h1⟩ := depth_mul_sine_mem h.toLawful hP ph
  have hoffset : chorusOffset N sr P ph = (7 / 1000 + 3 / 1000 * (P.chorusDepth * sineWave N ph)) * sr.hz := by
    simp only [chorusOffset, h.mul, h.add, chorusBase, chorusDepthSpan, rate]
    ring
  have hrate : (0 : X) ≤ sr.hz := (rate_pos sr).le
  rw [hoffset]
  exact ⟨mul_le_mul_of_nonneg_right (by linarith) hrate, mul_le_mul_of_nonneg_right (by linarith) hrate⟩

/-- 10 milliseconds at either sample rate fit the chorus ring with room for the second neighbour. -/
theorem chorusOffset_floor_mem {sr : SampleRate} {d : X} (hd : within (4 / 1000 * (sr.hz : X)) (10 / 1000 * sr.hz) d) :
    1 ≤ ⌊d⌋ ∧ ⌊d⌋ + 1 < 4096 := by
  obtain ⟨h0, h1⟩ := hd
  have hlo : (1 : X) ≤ d := le_trans (by cases sr <;> norm_num [SampleRate.hz]) h0
  have hhi : d < 4095 := lt_of_le_of_lt h1 (by cases sr <;> norm_num [SampleRate.hz])
  have hfloor : ⌊d⌋ < 4095 := Int.floor_lt.2 (by exact_mod_cast hhi)
  exact ⟨Int.le_floor.2 (by exact_mod_cast hlo), by omega⟩

end

/-- Settles O53: both offsets lie strictly between 0 and the length, so that no read meets the element written. -/
theorem readOffsetsStayInRing : Obligations.ReadOffsetsStayInRing := by
  intro X _ _ _ _ N sr P ph
  constructor
  · intro hN hP d
    have hd := chorusOffset_mem hN sr hP ph
    obtain ⟨hlo, hhi⟩ : 1 ≤ ⌊d⌋ ∧ ⌊d⌋ + 1 < 4096 := chorusOffset_floor_mem hd
    refine ⟨hd, hlo, hhi, fun w => ⟨sub_emod_ne (by omega) (by omega) w, ?_⟩⟩
    rw [sub_sub]
    exact sub_emod_ne (by omega) hhi w
  · intro back len
    obtain ⟨hlo, hhi⟩ := delaySamples_mem N sr P
    exact ⟨hlo, hhi, fun w => sub_emod_ne (by omega) (by omega) w⟩

end Sys2Proof.Machine

/-! ## What a tick stores in each ring (R63, R69, R241, R245, R249) -/

namespace Sys2Proof.Machine

section

variable {X : Type} [Field X] [LinearOrder X]

/-- One store: from a ring in its canonical form the element `slot` then reads `v`, and every other element reads as
before, whatever the form. -/
def Memory.Stores (before after : Memory X) (slot : Nat) (v : X) : Prop :=
  (before.wf = true → after.read slot = v) ∧ ∀ a, a ≠ slot → after.read a = before.read a

/-- `BufWrite` at a position is one store, to the element of that position modulo the length (R63). -/
theorem bufWrite_stores (n : Nat) (b : Memory X) (p : Nat) (v : X) : b.Stores (bufWrite n b p v) (p % n) v := by
  rw [← ringIndex_natCast]
  exact ⟨fun h => bufWrite_read_same h p v, fun a ha => bufWrite_read_other b ha v⟩

theorem combStep_out (N : Numerics X) (n : Nat) (feedback x : X) (c : Line X) :
    (combStep N n feedback x c).1 = c.buf.read (c.pos % n) := bufRead_natCast n c.buf c.pos

theorem combStep_stores (N : Numerics X) (n : Nat) (feedback x : X) (c : Line X) :
    c.buf.Stores (combStep N n feedback x c).2.buf (c.pos % n)
      (N.add x (N.mul feedback (c.buf.read (c.pos % n)))) := by
  rw [← bufRead_natCast]
  exact bufWrite_stores n c.buf c.pos _

theorem allpassStep_out (N : Numerics X) (n : Nat) (y : X) (a : Line X) :
    (allpassStep N n y a).1 = N.add (N.mul (-(7 / 10)) y) (a.buf.read (a.pos % n)) := by
  rw [← bufRead_natCast]
  rfl

theorem allpassStep_stores (N : Numerics X) (n : Nat) (y : X) (a : Line X) :
    a.buf.Stores (allpassStep N n y a).2.buf (a.pos % n)
      (N.add y (N.mul (7 / 10) (a.buf.read (a.pos % n)))) := by
  rw [← bufRead_natCast]
  exact bufWrite_stores n a.buf a.pos _

variable [FloorRing X]

theorem Chorus.process_stores (N : Numerics X) (sr : SampleRate) (P : Params X) (x : Frame X) (c : Chorus X) :
    c.bufL.Stores (c.process N sr P x).2.bufL (c.w % 4096) x.left
    ∧ c.bufR.Stores (c.process N sr P x).2.bufR (c.w % 4096) x.right :=
  ⟨bufWrite_stores _ _ _ _, bufWrite_stores _ _ _ _⟩

/-- What a tick stores in one channel of the delay: the input plus the feedback of what it reads (R245). -/
def delayStored (N : Numerics X) (sr : SampleRate) (P : Params X) (w : Nat) (x : X) (buf : Memory X) : X :=
  N.add x (N.mul P.delayFeedback (bufRead (2 * sr.hz) buf ((w : Int) - delaySamples N sr P)))

theorem Delay.process_stores (N : Numerics X) (sr : SampleRate) (P : Params X) (x : Frame X) (d : Delay X) :
    d.bufL.Stores (d.process N sr P x).2.bufL (d.w % (2 * sr.hz)) (delayStored N sr P d.w x.left d.bufL)
    ∧ d.bufR.Stores (d.process N sr P x).2.bufR (d.w % (2 * sr.hz)) (delayStored N sr P d.w x.right d.bufR) := by
  unfold delayStored
  rw [← delayLen_eq]
  exact ⟨bufWrite_stores _ _ _ _, bufWrite_stores _ _ _ _⟩

end

/-- Settles O27: each ring of the next state is one `BufWrite` of the ring before it, with the number its effect
computes; the allpasses' inputs are what the combs, and then the first allpass, answer. -/
theorem tickStoresOneElementPerRing : Obligations.TickStoresOneElementPerRing := by
  intro s t h
  cases (exec_tick s).symm.trans h
  intro N P sr len w u p0 p1 p2 p3 q0 q1 mono c back d avg d0 d1 d2 d3 y e0 z e1 stores
  obtain ⟨chorusL, chorusR⟩ := Chorus.process_stores N sr P ⟨mono, mono⟩ s.chorus
  obtain ⟨delayL, delayR⟩ := Delay.process_stores N sr P c s.delay
  have hy : (N.mul (N.add (N.add (N.add (N.add 0
      (combStep N combLen0 (N.mul combBase0 P.reverbDecay) avg s.reverb.comb0).1)
      (combStep N combLen1 (N.mul combBase1 P.reverbDecay) avg s.reverb.comb1).1)
      (combStep N combLen2 (N.mul combBase2 P.reverbDecay) avg s.reverb.comb2).1)
      (combStep N combLen3 (N.mul combBase3 P.reverbDecay) avg s.reverb.comb3).1) (1 / 4)) = y := by
    simp only [combStep_out]; rfl
  have hz : (allpassStep N apLen0 y s.reverb.ap0).1 = z := allpassStep_out N apLen0 y s.reverb.ap0
  have ap0 := allpassStep_stores N apLen0 y s.reverb.ap0
  have ap1 := allpassStep_stores N apLen1 z s.reverb.ap1
  rw [← hz] at ap1
  rw [← hy] at ap0 ap1
  exact ⟨chorusL, chorusR, delayL, delayR, combStep_stores N combLen0 _ avg s.reverb.comb0,
    combStep_stores N combLen1 _ avg s.reverb.comb1, combStep_stores N combLen2 _ avg s.reverb.comb2,
    combStep_stores N combLen3 _ avg s.reverb.comb3, ap0, ap1⟩

end Sys2Proof.Machine

/-! ## The echo (R245) -/

namespace Sys2Proof.Machine

section

variable {X : Type} [Field X] [LinearOrder X] [FloorRing X] {N : Numerics X}

/-- The delay after a run of input frames. -/
def Delay.run (N : Numerics X) (sr : SampleRate) (P : Params X) (d : Delay X) (xs : List (Frame X)) : Delay X :=
  xs.foldl (fun d x => (d.process N sr P x).2) d

theorem Delay.run_cons (N : Numerics X) (sr : SampleRate) (P : Params X) (d : Delay X) (x : Frame X)
    (xs : List (Frame X)) : d.run N sr P (x :: xs) = Delay.run N sr P (d.process N sr P x).2 xs := rfl

/-- A run advances the write index by its length, modulo the ring's (R61). -/
theorem Delay.run_w (sr : SampleRate) (P : Params X) : ∀ (xs : List (Frame X)) (d : Delay X),
    (d.run N sr P xs).w % (2 * sr.hz) = (d.w + xs.length) % (2 * sr.hz)
  | [], _ => rfl
  | x :: xs, d => by
    rw [Delay.run_cons, Delay.run_w sr P xs, Delay.process_w, advancePos, delayLen_eq, Nat.mod_add_mod,
      List.length_cons, Nat.add_right_comm, Nat.add_assoc]

/-- An element that none of a run's write indices names reads as before on both channels (R63). -/
theorem Delay.run_read (sr : SampleRate) (P : Params X) {a : Nat} : ∀ (xs : List (Frame X)) (d : Delay X),
    (∀ i < xs.length, a ≠ (d.w + i) % (2 * sr.hz)) →
    (d.run N sr P xs).bufL.read a = d.bufL.read a ∧ (d.run N sr P xs).bufR.read a = d.bufR.read a
  | [], _, _ => ⟨rfl, rfl⟩
  | x :: xs, d, h => by
    have hrest : ∀ i < xs.length, a ≠ ((d.process N sr P x).2.w + i) % (2 * sr.hz) := fun i hi => by
      have := h (i + 1) (Nat.succ_lt_succ hi)
      rwa [Delay.process_w, advancePos, delayLen_eq, Nat.mod_add_mod, Nat.add_right_comm]
    obtain ⟨restL, restR⟩ := Delay.run_read sr P xs _ hrest
    obtain ⟨⟨-, firstL⟩, -, firstR⟩ := Delay.process_stores N sr P x d
    have ha := h 0 (Nat.succ_pos _)
    exact ⟨restL.trans (firstL a ha), restR.trans (firstR a ha)⟩

/-- `D − 1` ticks after a tick the delay reads the element at that tick's write index, whatever the ring holds. -/
theorem Delay.run_read_back (sr : SampleRate) (P : Params X) (d : Delay X) (x : Frame X) {between : List (Frame X)}
    (hlen : (between.length : Int) + 1 = delaySamples N sr P) (b : Memory X) :
    let later := Delay.run N sr P (d.process N sr P x).2 between
    bufRead (2 * sr.hz) b ((later.w : Int) - delaySamples N sr P) = b.read (d.w % (2 * sr.hz)) := by
  intro later
  have hw : (later.w : Int) ≡ d.w + delaySamples N sr P [ZMOD (2 * sr.hz : Nat)] := by
    rw [← hlen]
    exact_mod_cast Int.natCast_modEq_iff.2 (Delay.run_w sr P (x :: between) d)
  rw [← bufRead_natCast]
  exact bufRead_congr b ((hw.sub_right _).trans (by rw [add_sub_cancel_right]))

/-- The ticks between write no element that the first one wrote: fewer than the ring's length follow it. -/
theorem Delay.run_keeps_stored (sr : SampleRate) (P : Params X) (d : Delay X) (x : Frame X) {between : List (Frame X)}
    (hlen : (between.length : Int) + 1 = delaySamples N sr P) (hL : d.bufL.wf = true) (hR : d.bufR.wf = true) :
    let later := Delay.run N sr P (d.process N sr P x).2 between
    later.bufL.read (d.w % (2 * sr.hz)) = delayStored N sr P d.w x.left d.bufL
    ∧ later.bufR.read (d.w % (2 * sr.hz)) = delayStored N sr P d.w x.right d.bufR := by
  obtain ⟨⟨storedL, -⟩, storedR, -⟩ := Delay.process_stores N sr P x d
  obtain ⟨keptL, keptR⟩ := Delay.run_read (N := N) sr P (a := d.w % (2 * sr.hz)) between (d.process N sr P x).2
    fun i hi h => by
      rw [Delay.process_w, advancePos, delayLen_eq, Nat.mod_add_mod, Nat.add_assoc] at h
      have hD := (delaySamples_mem N sr P).2
      have hdvd := (Nat.modEq_iff_dvd' (Nat.le_add_right _ _)).1 h
      rw [Nat.add_sub_cancel_left] at hdvd
      exact absurd (Nat.le_of_dvd (by omega) hdvd) (by omega)
  exact ⟨keptL.trans (storedL hL), keptR.trans (storedR hR)⟩

variable [IsStrictOrderedRing X]

/-- At DELAY_MIX 1 the delay outputs what it reads, where that is a number of the format (R240, R245). -/
theorem delayChannel_out (h : N.Lawful) (sr : SampleRate) {P : Params X} (hmix : P.delayMix = 1) (w : Nat) (x : X)
    (buf : Memory X) {v : X} (hread : bufRead (2 * sr.hz) buf ((w : Int) - delaySamples N sr P) = v)
    (hv : N.inT v) : (delayChannel N sr P w x buf).1 = v := by
  simp only [delayChannel, delayLen_eq, hread, hmix]
  exact crossfade_one h x hv

end

/-- Settles O56: the element a tick stores is written by none of the `D − 1` ticks after it, and is the one that the
`D`-th tick reads. -/
theorem echoReturnsAfterDelay : Obligations.EchoReturnsAfterDelay := by
  intro X _ _ _ _ N sr P d x y between hN hL hR _ hlen hmix read later
  obtain ⟨storedL, storedR⟩ := Delay.run_keeps_stored sr P d x hlen hL hR
  have hback := Delay.run_read_back sr P d x hlen
  exact congrArg₂ Frame.mk
    (delayChannel_out hN sr hmix _ _ _ ((hback _).trans storedL) (hN.inT_add _ _))
    (delayChannel_out hN sr hmix _ _ _ ((hback _).trans storedR) (hN.inT_add _ _))

end Sys2Proof.Machine

/-! ## The ring positions (R61) -/

namespace Sys2Proof.Machine

/-- The eight ring positions: chorus, delay, four combs, two allpasses (R61). -/
def StateOf.positions {X : Type} (s : StateOf X) : List Nat :=
  [s.chorus.w, s.delay.w, s.reverb.comb0.pos, s.reverb.comb1.pos, s.reverb.comb2.pos, s.reverb.comb3.pos,
    s.reverb.ap0.pos, s.reverb.ap1.pos]

/-- The lengths of their rings, in the same order (R65). -/
def ringLengths (sr : SampleRate) : List Nat := [4096, 2 * sr.hz, 2999, 3407, 3701, 4003, 521, 337]

theorem exec_tick_positions {s t : State} (h : exec .tick s = .next t) :
    t.positions = List.zipWith advancePos (ringLengths s.cfg.sr) s.positions := by
  cases (exec_tick s).symm.trans h
  rw [ringLengths, ← delayLen_eq]
  rfl

/-- Clearing an effect empties its rings and keeps its positions (R252). -/
theorem exec_fxClear_positions {mask : BitVec 3} {s t : State} (h : exec (.fxClear mask) s = .next t) :
    t.positions = s.positions := by
  cases (exec_fxClear mask s).symm.trans h
  have hchorus : (if maskChorus mask then s.chorus.clear else s.chorus).w = s.chorus.w := by split <;> rfl
  have hdelay : (if maskDelay mask then s.delay.clear else s.delay).w = s.delay.w := by split <;> rfl
  simp only [StateOf.positions, hchorus, hdelay]
  split <;> rfl

theorem exec_positions_of_ne_tick {i : Instr} {s t : State} (h : exec i s = .next t) (hi : i ≠ .tick) :
    t.positions = s.positions := by
  cases i using Instr.casesBySetp with
  | setp i hop =>
    obtain ⟨P, hP⟩ := exec_setp hop s
    cases hP.symm.trans h; rfl
  | nop => cases (exec_nop s).symm.trans h; rfl
  | tick => exact absurd rfl hi
  | noteOn note velocity => cases (exec_noteOn note velocity s).symm.trans h; rfl
  | noteOff note => cases (exec_noteOff note s).symm.trans h; rfl
  | allNotesOff => cases (exec_allNotesOff s).symm.trans h; rfl
  | loadPreset index =>
    obtain ⟨P, o, hP⟩ := exec_loadPreset index s
    cases hP.symm.trans h; rfl
  | lfoSync => cases (exec_lfoSync s).symm.trans h; rfl
  | fxClear mask => exact exec_fxClear_positions h

/-- A position in range stays in range, advanced or not. -/
theorem ite_advance_lt {p : Prop} [Decidable p] {len pos : Nat} (h : pos < len) :
    (if p then (pos + 1) % len else pos) < len := by
  split
  · exact Nat.mod_lt _ (Nat.zero_lt_of_lt h)
  · exact h

/-- Settles O28: only a tick moves the positions, each by 1 modulo the length of its ring. -/
theorem ringPositions : Obligations.RingPositions := by
  intro i s t h next inRing
  have hsr : t.cfg.sr = s.cfg.sr := by rw [(whoWritesWhat i s t h).1]
  have hreset : ∀ c, inRing (State.resetWith c) := fun c => by
    have hrate : 0 < c.sr.hz := by cases c.sr <;> decide
    simp [inRing, Line.reset, hrate]
  have hnext : t.positions = List.zipWith next (ringLengths s.cfg.sr) s.positions := by
    by_cases hi : i = .tick
    · subst hi; exact exec_tick_positions h
    · rw [exec_positions_of_ne_tick h hi]
      simp [next, hi, ringLengths, StateOf.positions]
  simp only [StateOf.positions, ringLengths, List.zipWith_cons_cons, List.zipWith_nil_left, List.cons.injEq,
    and_true] at hnext
  obtain ⟨chorus, delay, comb0, comb1, comb2, comb3, ap0, ap1⟩ := hnext
  refine ⟨chorus, delay, comb0, comb1, comb2, comb3, ap0, ap1, fun hs => ?_, hreset⟩
  obtain ⟨h0, h1, h2, h3, h4, h5, h6, h7⟩ := hs
  simp only [inRing, chorus, delay, comb0, comb1, comb2, comb3, ap0, ap1, hsr]
  exact ⟨ite_advance_lt h0, ite_advance_lt h1, ite_advance_lt h2, ite_advance_lt h3, ite_advance_lt h4,
    ite_advance_lt h5, ite_advance_lt h6, ite_advance_lt h7⟩

end Sys2Proof.Machine

/-! ## The step runs the decoded command (R70, R90) -/

namespace Sys2Proof.Machine

theorem step_of_decode {s : State} {w : Word} {rest : List (HostEvent Scalar)} {i : Instr}
    (hs : s.stream = .command w :: rest) (hw : decode w = .ok i) : step s = exec i { s with stream := rest } := by
  simp only [step, hs, hw]

/-- The word that `withFetchWord` places is the one it is given. -/
theorem withFetchWord_stream_toNat (s : State) (w : Word) :
    (s.withFetchWord 64 w.toNat).stream = .command w :: s.stream := by
  rw [State.withFetchWord_stream, Nat.mod_eq_of_lt w.isLt, BitVec.ofNat_toNat, BitVec.setWidth_eq]

/-- Settles O7: a step reads the head of the stream, where `withFetchWord` places its word. -/
theorem stepRunsDecodedInstruction : Obligations.StepRunsDecodedInstruction :=
  ⟨fun _ _ _ _ hs hw => step_of_decode hs hw, fun s w _ hw => step_of_decode (withFetchWord_stream_toNat s w) hw⟩

end Sys2Proof.Machine

/-! Proofs of the family 30_encoding: the round trip (O1), the opcode map (O2), the ignored bits (O3), the reserved
words (O4), the numeric operand (O6), words written out (O5), `NOP` (O11), the filter's registers (O13), with the
lemmas they rest on. -/

/-! ## The decoder, one equation per opcode (R96, R99) -/

namespace Sys2Proof

section

variable {w : Word}

theorem decode_of_nop (h : opField w = 0x00) : decode w = .ok .nop := by simp [decode, h]

theorem decode_of_tick (h : opField w = 0x01) : decode w = .ok .tick := by simp [decode, h]

theorem decode_of_noteOn (h : opField w = 0x02) : decode w = .ok (.noteOn (noteField w) (valField w)) := by
  simp [decode, h]

theorem decode_of_noteOff (h : opField w = 0x03) : decode w = .ok (.noteOff (noteField w)) := by simp [decode, h]

theorem decode_of_allNotesOff (h : opField w = 0x04) : decode w = .ok .allNotesOff := by simp [decode, h]

theorem decode_of_loadPreset (h : opField w = 0x05) : decode w = .ok (.loadPreset (indexField w)) := by
  simp [decode, h]

theorem decode_of_setp (h : opField w = 0x06) : decode w = decodeSetp (idxField w) (valField w) := by
  simp [decode, h]

theorem decode_of_lfoSync (h : opField w = 0x07) : decode w = .ok .lfoSync := by simp [decode, h]

theorem decode_of_fxClear (h : opField w = 0x08) : decode w = .ok (.fxClear (maskField w)) := by simp [decode, h]

theorem decode_of_nine_le (h : 9 ≤ (opField w).toNat) : decode w = .error (.opcode (opField w)) := by
  unfold decode
  split
  case h_10 => rfl
  all_goals omega

end

/-- The 38 parameter ids of R97. -/
def paramIds : List Nat :=
  [0x00, 0x01, 0x02, 0x03, 0x04, 0x05, 0x08, 0x09, 0x0A, 0x0B, 0x0C, 0x0D, 0x10, 0x11, 0x12, 0x13, 0x14,
   0x15, 0x16, 0x17, 0x18, 0x19, 0x1A, 0x1B, 0x1C, 0x20, 0x21, 0x22, 0x23, 0x28, 0x30, 0x31, 0x32, 0x38,
   0x39, 0x3A, 0x40, 0x41]

theorem decodeSetp_of_not_mem {id : BitVec 8} (h : id.toNat ∉ paramIds) (val : BitVec 32) :
    decodeSetp id val = .error (.paramId id) := by
  unfold decodeSetp
  split
  case h_39 => rfl
  all_goals rename_i hid; rw [hid] at h; exact absurd (by decide) h

/-! ## Decoding the encoder's words (R90 to R97, R105) -/

/-- Decoding a packed SETP word is the sub-map's choice. -/
theorem decode_packWord_setp (id : BitVec 8) (val : BitVec 32) : decode (packWord 0x06 id val) = decodeSetp id val := by
  rw [decode_of_setp (opField_packWord _ _ _), idxField_packWord, valField_packWord]

/-- A SETP's whole operand is its `val`, so the sub-map gives the command back (R93, R94, R97). -/
theorem decode_encode_setp {i : Instr} (hi : opField (encode i) = 0x06) : decode (encode i) = .ok i := by
  cases i <;> simp [encode] at hi <;> exact decode_packWord_setp _ _

/-- A note survives its seven bits (R95). -/
theorem note_toNat {note : Nat} (h : note < 128) : (BitVec.ofNat 8 note).toNat % 128 = note := by
  rw [BitVec.toNat_ofNat]; omega

/-- Settles O1: the operands of a well-formed command fit the fields that the decoder reads back. -/
theorem decodeEncodeRoundTrip : Obligations.DecodeEncodeRoundTrip := by
  intro i hi
  cases i using Instr.casesBySetp with
  | setp i hop => exact decode_encode_setp hop
  | nop => exact decode_of_nop (opField_packWord _ _ _)
  | tick => exact decode_of_tick (opField_packWord _ _ _)
  | noteOn note velocity =>
    rw [encode, decode_of_noteOn (opField_packWord _ _ _), noteField_packWord, valField_packWord,
      note_toNat (of_decide_eq_true hi)]
  | noteOff note =>
    rw [encode, decode_of_noteOff (opField_packWord _ _ _), noteField_packWord, note_toNat (of_decide_eq_true hi)]
  | allNotesOff => exact decode_of_allNotesOff (opField_packWord _ _ _)
  | loadPreset index =>
    rw [encode, decode_of_loadPreset (opField_packWord _ _ _), indexField_packWord, BitVec.toNat_ofNat,
      Nat.mod_eq_of_lt (of_decide_eq_true hi)]
  | lfoSync => exact decode_of_lfoSync (opField_packWord _ _ _)
  | fxClear mask =>
    rw [encode, decode_of_fxClear (opField_packWord _ _ _), maskField_packWord,
      BitVec.setWidth_setWidth_of_le _ (by decide), BitVec.setWidth_eq]

/-! ## The opcode map (R96, R97) -/

/-- A SETP row is masked on `op` and `idx`, any other on `op` alone. -/
theorem tableMask_eq (i : Instr) :
    tableMask i = if opField (encode i) = 0x06 then 0xFFFF000000000000 else 0xFF00000000000000 := by
  cases i <;> rw [encode, opField_packWord] <;> rfl

/-- A row's match has the `op` of the row's words, their `idx` where that is SETP's, and no other bit. -/
theorem tableMatch_eq (i : Instr) : tableMatch i = packWord (opField (encode i))
    (if opField (encode i) = 0x06 then idxField (encode i) else 0) 0 := by
  cases i <;> simp [encode] <;> rfl

/-- A word meets a row exactly when it has the `op` of the row's words and, where that is SETP's, their `idx`. -/
theorem meets_row_iff (w : Word) (i : Instr) : w &&& tableMask i = tableMatch i ↔
    opField w = opField (encode i) ∧ (opField (encode i) = 0x06 → idxField w = idxField (encode i)) := by
  rw [tableMask_eq, tableMatch_eq]
  by_cases h : opField (encode i) = 0x06
  · rw [if_pos h, if_pos h, and_idMask_eq_iff, imp_iff_right h]
  · rw [if_neg h, if_neg h, and_opMask_eq_iff, and_iff_left (absurd · h)]

/-- One command of each row, in the order of the constructors. -/
def Instr.rows : List Instr :=
  [.nop, .tick, .noteOn 0 0, .noteOff 0, .allNotesOff, .loadPreset 0, .setpMixSine 0, .setpMixTri 0, .setpMixSaw 0,
   .setpMixSquare 0, .setpMixNoise 0, .setpOscMix 0, .setpCutoff 0, .setpResonance 0, .setpDrive 0,
   .setpFilterMode 0, .setpFilterType 0, .setpEnvDepth 0, .setpAmpAttack 0, .setpAmpDecay 0, .setpAmpSustain 0,
   .setpAmpRelease 0, .setpFltAttack 0, .setpFltDecay 0, .setpFltSustain 0, .setpFltRelease 0, .setpSecMode 0,
   .setpSecIndex 0, .setpSecRatio 0, .setpSecShape 0, .setpSecLevel 0, .setpLfoRate 0, .setpLfoRateNorm 0,
   .setpLfoShape 0, .setpLfoDepth 0, .setpMasterVolume 0, .setpChorusRate 0, .setpChorusDepth 0, .setpChorusMix 0,
   .setpDelayTime 0, .setpDelayFeedback 0, .setpDelayMix 0, .setpReverbDecay 0, .setpReverbMix 0, .lfoSync,
   .fxClear 0]

theorem rows_mnemonic_nodup : (Instr.rows.map Instr.mnemonic).Nodup := by decide +kernel

/-- Every command has its row. -/
theorem exists_row (i : Instr) :
    ∃ r ∈ Instr.rows, r.mnemonic = i.mnemonic ∧ tableMask r = tableMask i ∧ tableMatch r = tableMatch i := by
  have h : Instr.rows[i.ctorIdx]?.map (fun r => (r.mnemonic, tableMask r, tableMatch r))
      = some (i.mnemonic, tableMask i, tableMatch i) := by cases i <;> rfl
  obtain ⟨r, hr, heq⟩ := Option.map_eq_some_iff.1 h
  simp only [Prod.mk.injEq] at heq
  exact ⟨r, List.mem_of_getElem? hr, heq⟩

/-- No two rows share a mnemonic, so the mnemonic fixes the mask and the match. -/
theorem table_of_mnemonic {i j : Instr} (h : j.mnemonic = i.mnemonic) :
    tableMask j = tableMask i ∧ tableMatch j = tableMatch i := by
  obtain ⟨r, hr, hri, hmask, hmatch⟩ := exists_row i
  obtain ⟨q, hq, hqj, hmask', hmatch'⟩ := exists_row j
  obtain rfl : q = r := List.inj_on_of_nodup_map rows_mnemonic_nodup hq hr (by rw [hqj, h, hri])
  exact ⟨hmask'.symm.trans hmask, hmatch'.symm.trans hmatch⟩

/-- The sub-map's answer has the parameter id it was asked for. -/
theorem fields_of_decodeSetp {id : BitVec 8} {val : BitVec 32} {j : Instr} (h : decodeSetp id val = .ok j) :
    opField (encode j) = 0x06 ∧ idxField (encode j) = id := by
  unfold decodeSetp at h
  split at h <;> cases h <;> rename_i hid <;>
    exact ⟨opField_packWord _ _ _, (idxField_packWord _ _ _).trans (BitVec.eq_of_toNat_eq hid.symm)⟩

/-- A word has the `op` of the command it decodes to and, where that is SETP's, its `idx`. -/
theorem fields_of_decode {w : Word} {j : Instr} (h : decode w = .ok j) :
    opField w = opField (encode j) ∧ (opField (encode j) = 0x06 → idxField w = idxField (encode j)) := by
  unfold decode at h
  split at h <;> rename_i hop
  case h_7 =>
    obtain ⟨hj, hid⟩ := fields_of_decodeSetp h
    exact ⟨(BitVec.eq_of_toNat_eq hop).trans hj.symm, fun _ => hid.symm⟩
  all_goals cases h
  all_goals
    simp only [encode, opField_packWord]
    exact ⟨BitVec.eq_of_toNat_eq hop, fun h6 => absurd h6 (by decide)⟩

/-- A SETP word with the `idx` of a row decodes to that row's command, whatever its `val` (R97). -/
theorem decode_of_setp_idx {w : Word} {i : Instr} (hi : opField (encode i) = 0x06) (hop : opField w = 0x06)
    (hidx : idxField w = idxField (encode i)) : ∃ j, decode w = .ok j ∧ j.mnemonic = i.mnemonic := by
  rw [decode_of_setp hop, hidx]
  cases i <;> simp [encode] at hi <;> rw [encode, idxField_packWord] <;> exact ⟨_, rfl, rfl⟩

/-- Settles O2: meeting a row and decoding to its command both fix `op`, and `idx` where `op` is SETP's, and no two
rows share a mnemonic. -/
theorem opcodeMapRows : Obligations.OpcodeMapRows := by
  intro w i
  rw [meets_row_iff]
  constructor
  · rintro ⟨hop, hidx⟩
    cases i using Instr.casesBySetp with
    | setp i hi => exact decode_of_setp_idx hi (hop.trans hi) (hidx hi)
    | nop => exact ⟨_, decode_of_nop (hop.trans (opField_packWord _ _ _)), rfl⟩
    | tick => exact ⟨_, decode_of_tick (hop.trans (opField_packWord _ _ _)), rfl⟩
    | noteOn note velocity => exact ⟨_, decode_of_noteOn (hop.trans (opField_packWord _ _ _)), rfl⟩
    | noteOff note => exact ⟨_, decode_of_noteOff (hop.trans (opField_packWord _ _ _)), rfl⟩
    | allNotesOff => exact ⟨_, decode_of_allNotesOff (hop.trans (opField_packWord _ _ _)), rfl⟩
    | loadPreset index => exact ⟨_, decode_of_loadPreset (hop.trans (opField_packWord _ _ _)), rfl⟩
    | lfoSync => exact ⟨_, decode_of_lfoSync (hop.trans (opField_packWord _ _ _)), rfl⟩
    | fxClear mask => exact ⟨_, decode_of_fxClear (hop.trans (opField_packWord _ _ _)), rfl⟩
  · rintro ⟨j, hj, hname⟩
    rw [← meets_row_iff, ← (table_of_mnemonic hname).1, ← (table_of_mnemonic hname).2, meets_row_iff]
    exact fields_of_decode hj

/-! ## Ignored bits (R98) -/

/-- Settles O3: each opcode's equation of the decoder names the fields that it reads. -/
theorem ignoredBitsDecodeAlike : Obligations.IgnoredBitsDecodeAlike := by
  intro w u (heq : opField w = opField u) op
  have hw {b : BitVec 8} (h : op = b.toNat) : opField w = b := BitVec.eq_of_toNat_eq h
  have hu {b : BitVec 8} (h : op = b.toNat) : opField u = b := heq ▸ hw h
  refine ⟨fun h => ?_, fun h hnote hval => ?_, fun h hnote => ?_, fun h hindex => ?_, fun h hid hval => ?_,
    fun h hmask => ?_⟩
  · simp only [List.mem_cons, List.not_mem_nil, or_false] at h
    rcases h with h | h | h | h
    · exact (decode_of_nop (hw h)).trans (decode_of_nop (hu h)).symm
    · exact (decode_of_tick (hw h)).trans (decode_of_tick (hu h)).symm
    · exact (decode_of_allNotesOff (hw h)).trans (decode_of_allNotesOff (hu h)).symm
    · exact (decode_of_lfoSync (hw h)).trans (decode_of_lfoSync (hu h)).symm
  · rw [decode_of_noteOn (hw h), decode_of_noteOn (hu h), noteField, noteField, hnote, valField, valField, hval]
  · rw [decode_of_noteOff (hw h), decode_of_noteOff (hu h), noteField, noteField, hnote]
  · rw [decode_of_loadPreset (hw h), decode_of_loadPreset (hu h), indexField, indexField, idxField, idxField, hindex]
  · rw [decode_of_setp (hw h), decode_of_setp (hu h), idxField, idxField, hid, valField, valField, hval]
  · rw [decode_of_fxClear (hw h), decode_of_fxClear (hu h), maskField, maskField, hmask]

end Sys2Proof

/-! ## Reserved words, `NOP`, words written out (R99, R100) -/

namespace Sys2Proof.Machine

/-- A word that is no command is consumed and nothing else (R99). -/
theorem step_of_reserved {s : State} {w : Word} {rest : List (HostEvent Scalar)} {r : Reserved}
    (hs : s.stream = .command w :: rest) (hw : decode w = .error r) : step s = .next { s with stream := rest } := by
  simp only [step, hs, hw]

/-- Settles O4: the decoder rejects a reserved word, and a step consumes what the decoder rejects. -/
theorem reservedWordsChangeNothing : Obligations.ReservedWordsChangeNothing := by
  rintro s w rest hs (hop | ⟨hop, hidx⟩)
  · exact step_of_reserved hs (decode_of_nine_le hop)
  · exact step_of_reserved hs ((decode_of_setp (BitVec.eq_of_toNat_eq hop)).trans (decodeSetp_of_not_mem hidx _))

/-- Settles O11: the meaning of `NOP` is the identity, and the all-zero word has its `op`. -/
theorem nopChangesNothing : Obligations.NopChangesNothing := ⟨exec_nop, decode_of_nop (by decide)⟩

/-- Settles O5: the decoder computes each word's command. -/
theorem writtenOutWordsDecode : Obligations.WrittenOutWordsDecode := by
  unfold Obligations.WrittenOutWordsDecode
  decide

/-! ## The numeric operand (R93) -/

/-- The rounded integer is at most half a unit away, and even where it is exactly that. -/
theorem roundTiesToEven_near (x : Scalar) : |(roundTiesToEven x : Scalar) - x| ≤ 1 / 2
    ∧ (|(roundTiesToEven x : Scalar) - x| = 1 / 2 → 2 ∣ roundTiesToEven x) := by
  have hlo : (x.floor : Scalar) ≤ x := Int.floor_le x
  have hhi : x < x.floor + 1 := Int.lt_floor_add_one x
  unfold roundTiesToEven
  generalize x.floor = f at *
  dsimp only
  split_ifs with hlow hhigh heven
  · rw [abs_of_nonpos (by linarith)]
    exact ⟨by linarith, fun h => by linarith⟩
  · rw [abs_of_nonneg (by push_cast; linarith)]
    push_cast
    exact ⟨by linarith, fun h => by linarith⟩
  · rw [abs_of_nonpos (by linarith)]
    exact ⟨by linarith, fun _ => Int.dvd_of_emod_eq_zero heven⟩
  · rw [abs_of_nonneg (by push_cast; linarith)]
    push_cast
    exact ⟨by linarith, fun _ => by omega⟩

theorem roundTiesToEven_le {x : Scalar} {n : Int} (h : x ≤ n) : roundTiesToEven x ≤ n := by
  have hnear := (abs_le.1 (roundTiesToEven_near x).1).2
  have : (roundTiesToEven x : Scalar) < (n + 1 : Int) := by push_cast; linarith
  exact Int.lt_add_one_iff.1 (by exact_mod_cast this)

theorem le_roundTiesToEven {x : Scalar} {n : Int} (h : n ≤ x) : n ≤ roundTiesToEven x := by
  have hnear := (abs_le.1 (roundTiesToEven_near x).1).1
  have : ((n - 1 : Int) : Scalar) < roundTiesToEven x := by push_cast; linarith
  exact Int.sub_one_lt_iff.1 (by exact_mod_cast this)

theorem roundTiesToEven_intCast (n : Int) : roundTiesToEven n = n :=
  le_antisymm (roundTiesToEven_le le_rfl) (le_roundTiesToEven le_rfl)

/-- Inside the operand's range the code is the rounded number. -/
theorem encodeQ_toInt {x : Scalar} (hlo : -32768 ≤ x) (hhi : x ≤ 32768 - 1 / 65536) :
    (encodeQ x).toInt = roundTiesToEven (x * 65536) := by
  have h1 : -2147483648 ≤ roundTiesToEven (x * 65536) := le_roundTiesToEven (by push_cast; linarith)
  have h2 : roundTiesToEven (x * 65536) ≤ 2147483647 := roundTiesToEven_le (by push_cast; linarith)
  rw [encodeQ, min_eq_right h2, max_eq_right h1]
  exact BitVec.toInt_ofInt_eq_self (by decide) h1 (Int.lt_add_one_of_le h2)

theorem encodeQ_of_gt {x : Scalar} (h : 32768 - 1 / 65536 < x) : encodeQ x = 0x7FFFFFFF := by
  have : 2147483647 ≤ roundTiesToEven (x * 65536) := le_roundTiesToEven (by push_cast; linarith)
  rw [encodeQ, min_eq_left this]
  rfl

theorem encodeQ_of_lt {x : Scalar} (h : x < -32768) : encodeQ x = 0x80000000 := by
  have : roundTiesToEven (x * 65536) ≤ -2147483648 := roundTiesToEven_le (by push_cast; linarith)
  rw [encodeQ, max_eq_left ((min_le_right _ _).trans this)]
  rfl

theorem operandQ_mem (val : BitVec 32) :
    -32768 ≤ (operandQ val : Scalar) ∧ (operandQ val : Scalar) ≤ 32768 - 1 / 65536 := by
  have hlo : ((-2147483648 : Int) : Scalar) ≤ val.toInt := by exact_mod_cast BitVec.le_toInt val
  have hhi : (val.toInt : Scalar) ≤ (2147483647 : Int) := by exact_mod_cast Int.le_of_lt_add_one BitVec.toInt_lt
  push_cast at hlo hhi
  unfold operandQ
  constructor <;> linarith

theorem encodeQ_operandQ (val : BitVec 32) : encodeQ (operandQ val) = val := by
  obtain ⟨hlo, hhi⟩ := operandQ_mem val
  apply BitVec.eq_of_toInt_eq
  rw [encodeQ_toInt hlo hhi, operandQ, div_mul_cancel₀ _ (by norm_num), roundTiesToEven_intCast]

/-- In range, the operand an assembler's code stands for misses the number by the rounding of `x × 65536`. -/
theorem operandQ_encodeQ_sub {x : Scalar} (hlo : -32768 ≤ x) (hhi : x ≤ 32768 - 1 / 65536) :
    |operandQ (encodeQ x) - x| = |(roundTiesToEven (x * 65536) : Scalar) - x * 65536| / 65536 := by
  have h : (roundTiesToEven (x * 65536) : Scalar) / 65536 - x
      = ((roundTiesToEven (x * 65536) : Scalar) - x * 65536) / 65536 := by ring
  rw [operandQ, encodeQ_toInt hlo hhi, h, abs_div, abs_of_pos (show (0 : Scalar) < 65536 by norm_num)]

/-- Settles O6: the assembler rounds `x × 65536` to the nearest integer, and only outside the operand's range does the
saturation change it. -/
theorem numericOperand : Obligations.NumericOperand := by
  refine ⟨fun val => ⟨rfl, (operandQ_mem val).1, (operandQ_mem val).2, encodeQ_operandQ val⟩, fun x hlo hhi => ?_,
    fun x => encodeQ_of_gt, fun x => encodeQ_of_lt⟩
  obtain ⟨hnear, htie⟩ := roundTiesToEven_near (x * 65536)
  rw [operandQ_encodeQ_sub hlo hhi, encodeQ_toInt hlo hhi]
  exact ⟨by linarith, fun h => htie (by linarith)⟩

/-! ## The filter's registers (R272 to R277) -/

theorem exec_setpCutoff (val : BitVec 32) (s : State) : exec (.setpCutoff val) s =
    .next { s with params := Params.setCutoff s.num s.cfg.sr (operandQ val) s.params } := rfl

theorem exec_setpResonance (val : BitVec 32) (s : State) : exec (.setpResonance val) s =
    .next { s with params := Params.setResonance (operandQ val) s.params } := rfl

theorem exec_setpDrive (val : BitVec 32) (s : State) : exec (.setpDrive val) s =
    .next { s with params := Params.setDrive (operandQ val) s.params } := rfl

theorem exec_setpFilterMode (val : BitVec 32) (s : State) : exec (.setpFilterMode val) s =
    .next { s with params := Params.setFilterMode (filterModeOf (operandE 4 val)) s.params } := rfl

theorem exec_setpFilterType (val : BitVec 32) (s : State) : exec (.setpFilterType val) s =
    .next { s with params := Params.setFilterType (filterTypeOf (operandE 2 val)) s.params } := rfl

theorem exec_setpEnvDepth (val : BitVec 32) (s : State) : exec (.setpEnvDepth val) s =
    .next { s with params := Params.setEnvDepth (operandQ val) s.params } := rfl

theorem cutoffMax_eq {X : Type} [Field X] (N : Numerics X) (sr : SampleRate) (P : Params X) :
    cutoffMax N sr P = N.mul (if P.filterType = .svf then 45 / 100 else 225 / 1000) (rate sr) := by
  unfold cutoffMax
  cases P.filterType <;> rfl

theorem resonanceMax_eq {X : Type} [Field X] (P : Params X) :
    resonanceMax P = if P.filterType = .svf then 99 / 100 else 1 := by
  unfold resonanceMax
  cases P.filterType <;> rfl

/-- Where nothing is rounded a product is the product. -/
theorem State.num_mul_of_exact {s : State} (h : s.cfg.num = .exact) (x y : Scalar) : s.num.mul x y = x * y := by
  rw [State.num, h]
  exact Config.num_exact.rnd_eq _

/-- An E(4) operand beyond the last mode selects the last one (R94, R275). -/
theorem filterModeOf_operandE (val : BitVec 32) : filterModeOf (operandE 4 val) = if val.toNat = 0 then .lp
    else if val.toNat = 1 then .hp else if val.toNat = 2 then .bp else .notch := by
  rw [operandE]
  rcases val.toNat with _ | _ | _ | n <;> simp [filterModeOf]

/-- An E(2) operand beyond the last type selects the last one (R94, R276). -/
theorem filterTypeOf_operandE (val : BitVec 32) :
    filterTypeOf (operandE 2 val) = if val.toNat = 0 then .svf else .ladder := by
  rw [operandE]
  rcases val.toNat with _ | n <;> simp [filterTypeOf]

/-- Settles O13: each command is one register write, with the bound or the enumerator written out. -/
theorem setpFilterWrites : Obligations.SetpFilterWrites := by
  intro val s v n share cutoffTop resonanceTop
  refine ⟨?_, fun h => State.num_mul_of_exact h _ _, ?_, exec_setpDrive val s, ?_, ?_, exec_setpEnvDepth val s⟩
  · rw [exec_setpCutoff, Params.setCutoff, cutoffMax_eq]; rfl
  · rw [exec_setpResonance, Params.setResonance, resonanceMax_eq]; rfl
  · rw [exec_setpFilterMode, filterModeOf_operandE]; rfl
  · rw [exec_setpFilterType, filterTypeOf_operandE]; rfl

end Sys2Proof.Machine

/-! Proofs of the family 40_oscillator: the step correction (O38), the generators (O39), the blend (O40) and the
phase (O41), with the lemmas they rest on. -/

/-! ## A format that does not round: each operator is the field's own -/

namespace Sys2Proof.Numerics

section

variable {X : Type} [Field X] {N : Numerics X} (h : N.rnd = id)
include h

theorem add_of_rnd_id (x y : X) : N.add x y = x + y := congrFun h _
theorem sub_of_rnd_id (x y : X) : N.sub x y = x - y := congrFun h _
theorem mul_of_rnd_id (x y : X) : N.mul x y = x * y := congrFun h _
theorem div_of_rnd_id (x y : X) : N.div x y = x / y := congrFun h _

end

end Sys2Proof.Numerics

namespace Sys2Proof.Machine

open Sys2Proof.Numerics (add_of_rnd_id sub_of_rnd_id mul_of_rnd_id div_of_rnd_id)

/-! ## The step correction (R113) -/

section

variable {X : Type} [Field X] [LinearOrder X] {N : Numerics X}

theorem blep_of_lt {t dt : X} (ht : t < dt) :
    blep N t dt = N.sub (N.sub (N.mul 2 (N.div t dt)) (N.mul (N.div t dt) (N.div t dt))) 1 := if_pos ht

theorem blep_of_gt {t dt : X} (ht : ¬ t < dt) (ht' : N.sub 1 dt < t) :
    blep N t dt = N.add (N.add (N.mul (N.div (N.sub t 1) dt) (N.div (N.sub t 1) dt))
      (N.mul 2 (N.div (N.sub t 1) dt))) 1 :=
  (if_neg ht).trans (if_pos ht')

theorem blep_of_between {t dt : X} (ht : ¬ t < dt) (ht' : ¬ N.sub 1 dt < t) : blep N t dt = 0 :=
  (if_neg ht).trans (if_neg ht')

theorem blep_of_lt_of_rnd_id (h : N.rnd = id) {t dt : X} (ht : t < dt) : blep N t dt = -(t / dt - 1) ^ 2 := by
  rw [blep_of_lt ht]
  simp only [sub_of_rnd_id h, mul_of_rnd_id h, div_of_rnd_id h]
  ring

theorem blep_of_gt_of_rnd_id (h : N.rnd = id) {t dt : X} (ht : ¬ t < dt) (ht' : 1 - dt < t) :
    blep N t dt = ((t - 1) / dt + 1) ^ 2 := by
  rw [blep_of_gt ht (by rwa [sub_of_rnd_id h])]
  simp only [add_of_rnd_id h, sub_of_rnd_id h, mul_of_rnd_id h, div_of_rnd_id h]
  ring

theorem blep_of_between_of_rnd_id (h : N.rnd = id) {t dt : X} (ht : ¬ t < dt) (ht' : ¬ 1 - dt < t) :
    blep N t dt = 0 :=
  blep_of_between ht (by rwa [sub_of_rnd_id h])

/-- At increment 0 no phase lies in either region. -/
theorem blep_zero_inc [IsStrictOrderedRing X] (h : N.rnd = id) {t : X} (h0 : 0 ≤ t) (h1 : t < 1) :
    blep N t 0 = 0 :=
  blep_of_between_of_rnd_id h (not_lt.2 h0) (by rw [sub_zero]; exact not_lt.2 h1.le)

theorem blep_zero_phase (h : N.rnd = id) {dt : X} (hdt : 0 < dt) : blep N 0 dt = -1 := by
  rw [blep_of_lt_of_rnd_id h hdt, zero_div]
  ring

/-- The number squared in each region lies in [−1, 1]. -/
theorem blep_mem [IsStrictOrderedRing X] (h : N.rnd = id) {t dt : X} (h0 : 0 ≤ t) (h1 : t < 1) :
    within (-1) 1 (blep N t dt) := by
  by_cases ht : t < dt
  · have hdt : 0 < dt := h0.trans_lt ht
    have hu0 : 0 ≤ t / dt := div_nonneg h0 hdt.le
    have hu1 : t / dt < 1 := (div_lt_one hdt).2 ht
    have hsq : (t / dt - 1) ^ 2 ≤ 1 := (sq_le_one_iff_abs_le_one _).2 (abs_le.2 ⟨by linarith, by linarith⟩)
    rw [blep_of_lt_of_rnd_id h ht]
    exact ⟨neg_le_neg hsq, by linarith [sq_nonneg (t / dt - 1)]⟩
  · by_cases ht' : 1 - dt < t
    · have hdt : 0 < dt := by linarith
      have hu0 : -1 < (t - 1) / dt := by rw [lt_div_iff₀ hdt]; linarith
      have hu1 : (t - 1) / dt < 0 := div_neg_of_neg_of_pos (sub_neg.2 h1) hdt
      have hsq : ((t - 1) / dt + 1) ^ 2 ≤ 1 :=
        (sq_le_one_iff_abs_le_one _).2 (abs_le.2 ⟨by linarith, by linarith⟩)
      rw [blep_of_gt_of_rnd_id h ht ht']
      exact ⟨by linarith [sq_nonneg ((t - 1) / dt + 1)], hsq⟩
    · rw [blep_of_between_of_rnd_id h ht ht']
      exact ⟨by norm_num, zero_le_one⟩

end

/-! ## The generators (R114 to R117) -/

section

variable {X : Type} [Field X] [LinearOrder X] [FloorRing X] {N : Numerics X}

omit [FloorRing X] in
theorem triWave_eq [IsStrictOrderedRing X] (N : Numerics X) (t : X) :
    triWave N t = N.sub 1 (N.mul 4 |N.sub t (1 / 2)|) := by
  rw [triWave, absolute_eq_abs]

theorem sineWave_exact (h : N.Exact) (t : X) : sineWave N t = N.sin (N.pi * 2 * t) := by
  rw [sineWave, radians, h.mul, h.timesPi_eq]

theorem sineWave_quarters [IsStrictOrderedRing X] (h : N.Exact) :
    sineWave N 0 = 0 ∧ sineWave N (1 / 4) = 1 ∧ sineWave N (3 / 4) = -1 := by
  refine ⟨?_, ?_, ?_⟩ <;> rw [sineWave_exact h]
  · rw [mul_zero, h.sin_zero]
  · rw [show N.pi * 2 * (1 / 4) = N.pi / 2 by ring, h.sin_quarter]
  · rw [show N.pi * 2 * (3 / 4) = 3 * N.pi / 2 by ring, h.sin_three_quarters]

/-! ## The blend (R118, R119) -/

/-- The register file with the five weights of the blend multiplied by `k`. -/
def scaleMix (k : X) (P : Params X) : Params X :=
  { P with mixSine := k * P.mixSine, mixTri := k * P.mixTri, mixSaw := k * P.mixSaw,
           mixSquare := k * P.mixSquare, mixNoise := k * P.mixNoise }

omit [LinearOrder X] [FloorRing X] in
theorem mixSum_scaleMix (h : N.rnd = id) (k : X) (P : Params X) : mixSum N (scaleMix k P) = k * mixSum N P := by
  simp only [mixSum, scaleMix, add_of_rnd_id h]
  ring

theorem weighted_scaleMix (h : N.rnd = id) (k : X) (P : Params X) (t dt noise : X) :
    weighted N (scaleMix k P) t dt noise = k * weighted N P t dt noise := by
  simp only [weighted, scaleMix, add_of_rnd_id h, mul_of_rnd_id h]
  ring

/-- The blend is a quotient of two sums that are linear in the weights. -/
theorem blend_scaleMix [IsStrictOrderedRing X] (h : N.rnd = id) {k : X} (hk : 0 < k) (P : Params X)
    (t dt noise : X) : blend N (scaleMix k P) t dt noise = blend N P t dt noise := by
  simp only [blend, mixSum_scaleMix h, weighted_scaleMix h, div_of_rnd_id h, mul_pos_iff_of_pos_left hk,
    mul_div_mul_left _ _ hk.ne']

/-! ## The phase (R111) -/

theorem wrap1_of_rnd_id (h : N.rnd = id) (x : X) : wrap1 N x = Int.fract x := sub_of_rnd_id h _ _

/-- A wrapped summand leaves the fractional part of the sum as it is. -/
theorem fract_fract_add [IsStrictOrderedRing X] (x y : X) : Int.fract (Int.fract x + y) = Int.fract (x + y) :=
  Int.fract_eq_fract.2 ⟨-⌊x⌋, by rw [Int.fract]; push_cast; ring⟩

theorem Osc.advance_phase_of_rnd_id (h : N.rnd = id) (o : Osc X) :
    (o.advance N).phase = Int.fract (o.phase + o.inc) := by
  rw [Osc.advance, wrap1_of_rnd_id h, add_of_rnd_id h]

theorem Osc.advance_phase_mem [IsStrictOrderedRing X] {o : Osc X}
    (h : N.rnd = id ∨ N.Lawful ∧ 0 ≤ o.phase ∧ 0 ≤ o.inc) : isPhase (o.advance N).phase := by
  rcases h with hid | ⟨hL, hphase, hinc⟩
  · rw [Osc.advance_phase_of_rnd_id hid]
    exact ⟨Int.fract_nonneg _, Int.fract_lt_one _⟩
  · exact advance_mem hL hphase hinc

/-- The oscillator after `n` calls of `process`. -/
def Osc.afterCalls (N : Numerics X) (P : Params X) (n : Nat) (o : Osc X) : Osc X :=
  (fun k => (k.process N P).2)^[n] o

theorem Osc.afterCalls_succ (P : Params X) (n : Nat) (o : Osc X) :
    o.afterCalls N P (n + 1) = ((o.afterCalls N P n).process N P).2 :=
  Function.iterate_succ_apply' _ n o

theorem Osc.afterCalls_inc (P : Params X) (n : Nat) (o : Osc X) : (o.afterCalls N P n).inc = o.inc := by
  induction n with
  | zero => rfl
  | succ n ih => rw [Osc.afterCalls_succ, Osc.process_inc, ih]

theorem Osc.afterCalls_phase [IsStrictOrderedRing X] (h : N.rnd = id) (P : Params X) (n : Nat) {o : Osc X}
    (h0 : o.phase = 0) : (o.afterCalls N P n).phase = Int.fract (n * o.inc) := by
  induction n with
  | zero => simpa [Osc.afterCalls] using h0
  | succ n ih =>
    calc (o.afterCalls N P (n + 1)).phase
        = Int.fract (Int.fract (n * o.inc) + o.inc) := by
          rw [Osc.afterCalls_succ, Osc.process_phase, wrap1_of_rnd_id h, add_of_rnd_id h, ih, Osc.afterCalls_inc]
      _ = Int.fract ((n + 1 : Nat) * o.inc) := by
          rw [fract_fract_add, Nat.cast_add_one, add_one_mul]

end

/-- Settles O38: up to its sign, each region's polynomial is the square of the distance to the region's outer
edge counted in increments, which is at most 1. -/
theorem blepCorrection : Obligations.BlepCorrection := by
  intro X _ _ _ _ N t dt
  refine ⟨blep_of_lt, blep_of_gt, blep_of_between, fun h h0 h1 _ => ?_⟩
  obtain ⟨hlo, hhi⟩ := blep_mem h (dt := dt) h0 h1
  exact ⟨blep_of_lt_of_rnd_id h, blep_of_gt_of_rnd_id h, blep_of_between_of_rnd_id h, blep_zero_inc h h0 h1,
    blep_zero_phase h, hlo, hhi⟩

/-- Settles O40: a call is one draw, one advance and the blend, whose two sums scale with the weights. -/
theorem oscillatorBlend : Obligations.OscillatorBlend := fun _ _ _ _ _ _ P o =>
  ⟨rfl, fun h _ hk => blend_scaleMix h hk P o.phase o.inc _⟩

/-- Settles O41: by induction on the number of calls, since the fractional part of a sum forgets that a summand was
wrapped. -/
theorem phaseAfterCalls : Obligations.PhaseAfterCalls := fun _ _ _ _ _ _ P _ n =>
  ⟨rfl, Osc.advance_phase_mem, fun h h0 => Osc.afterCalls_phase h P n h0⟩

/-- Settles O39: each generator is its rule's formula, and a quarter turn is a quarter of the sine's period. -/
theorem generators : Obligations.Generators := by
  refine ⟨fun X _ _ _ _ N t dt => ⟨rfl, triWave_eq N t, rfl, rfl, sineWave_quarters⟩, fun next t => ?_⟩
  show Real.sin (Real.pi * 2 * t) = Real.sin (2 * Real.pi * t)
  rw [mul_comm Real.pi 2]

end Sys2Proof.Machine

/-! Proofs of the family 41_secondary_engine: the engine's sample and its state after a call (O42), with the lemmas
they rest on. -/

namespace Sys2Proof.Machine

/-! ## The secondary engine (R130 to R134) -/

section

variable {X : Type} [Field X]

theorem secSample_pm (N : Numerics X) {P : Params X} (hm : P.secMode = .pm) (t n : X) :
    secSample N P t n = N.sin (pmPhase N P t) := by
  rw [secSample, hm]

theorem secSample_morph (N : Numerics X) {P : Params X} (hm : P.secMode = .morph) (t n : X) :
    secSample N P t n = crossfade N P.secShape (sineWave N t) (ramp N t) := by
  rw [secSample, hm]

theorem secSample_noise (N : Numerics X) {P : Params X} (hm : P.secMode = .noise) (t n : X) :
    secSample N P t n = n := by
  rw [secSample, hm]

variable [LinearOrder X] [FloorRing X] [IsStrictOrderedRing X] {N : Numerics X} {P : Params X}

theorem modIndex_zero (h : N.Lawful) (hi : P.secIndex = 0) : modIndex N P = 0 := by
  rw [modIndex, hi, Numerics.mul, mul_zero, h.rnd_zero]

/-- Without modulation the carrier's phase is the unmodulated one: that product is a number of the format, so adding
0 does not round it again. -/
theorem pmPhase_zero_index (h : N.Lawful) (hi : P.secIndex = 0) (t : X) : pmPhase N P t = radians N t := by
  have hmod (y : X) : N.mul 0 y = 0 := by rw [Numerics.mul, zero_mul, h.rnd_zero]
  rw [pmPhase, modIndex_zero h hi, hmod, Numerics.add, add_zero]
  exact h.inT_mul _ _

theorem secSample_pm_zero_index (h : N.Lawful) (hm : P.secMode = .pm) (hi : P.secIndex = 0) (t n : X) :
    secSample N P t n = sineWave N t := by
  rw [secSample_pm N hm, pmPhase_zero_index h hi, sineWave]

/-- At the far end of the morph only the naive saw is heard: a crossfade at 1 is its wet signal. -/
theorem secSample_morph_one (h : N.Lawful) (hm : P.secMode = .morph) (hs : P.secShape = 1) (t n : X) :
    secSample N P t n = ramp N t := by
  rw [secSample_morph N hm, hs]
  exact crossfade_one h _ (h.inT_sub _ _)

end

/-- Settles O42: the state after a call does not depend on the mode, the sample is read off mode by mode, and the two
corner cases are a product with 0 and a crossfade at 1. -/
theorem secondaryProcess : Obligations.SecondaryProcess := by
  intro X _ _ _ _ N P e
  refine ⟨Prod.ext ?sample rfl, fun h => ⟨fun hm hi => secSample_pm_zero_index h hm hi _ _,
    fun hm hs => secSample_morph_one h hm hs _ _⟩⟩
  cases hm : P.secMode with
  | pm => exact secSample_pm N hm _ _
  | morph => exact secSample_morph N hm _ _
  | noise => exact secSample_noise N hm _ _

end Sys2Proof.Machine

/-! Proofs of the family 42_envelope: the envelope's events (O43), its step in each stage (O44), the attack's closed
form (O46), with the lemmas they rest on. -/

/-! ## The events (R145 to R147) -/

namespace Sys2Proof.Machine

section

variable {X : Type}

theorem Env.noteOff_of_active {e : Env X} (h : e.stage ≠ .idle) : e.noteOff = ⟨.release, e.out⟩ := by
  simp [Env.noteOff, envActive, h]

/-- A second release finds the envelope idle, or in RELEASE already. -/
theorem Env.noteOff_noteOff (e : Env X) : e.noteOff.noteOff = e.noteOff := by
  by_cases h : e.stage = .idle
  · simp only [Env.noteOff_of_idle h]
  · simp only [Env.noteOff_of_active h]
    exact Env.noteOff_of_active nofun

end

/-- Settles O43: `noteOff` acts according to whether the stage is IDLE; the other two events are constant in it. -/
theorem envelopeEvents : Obligations.EnvelopeEvents := fun _ _ e =>
  ⟨rfl, Env.noteOff_of_active, Env.noteOff_of_idle, e.noteOff_noteOff, rfl⟩

/-! ## The step of each stage (R148 to R153) -/

section

variable {X : Type} [Field X] [LinearOrder X] (N : Numerics X)

section

variable (sr : SampleRate) (r : Adsr X) (out : X)

@[simp] theorem Env.process_attack :
    Env.process N sr r ⟨.attack, out⟩ = attackStep N (coef N sr r.attack) out := rfl
@[simp] theorem Env.process_decay :
    Env.process N sr r ⟨.decay, out⟩ = decayStep N (coef N sr r.decay) r.sustain out := rfl
@[simp] theorem Env.process_sustain : Env.process N sr r ⟨.sustain, out⟩ = ⟨.sustain, r.sustain⟩ := rfl
@[simp] theorem Env.process_release :
    Env.process N sr r ⟨.release, out⟩ = releaseStep N (coef N sr r.release) out := rfl
@[simp] theorem Env.process_idle : Env.process N sr r ⟨.idle, out⟩ = ⟨.idle, out⟩ := rfl

end

variable {N} {c target out : X}

theorem attackStep_of_one_le (h : 1 ≤ approach N c (13 / 10) out) : attackStep N c out = ⟨.decay, 1⟩ := if_pos h

theorem attackStep_of_lt_one (h : approach N c (13 / 10) out < 1) :
    attackStep N c out = ⟨.attack, approach N c (13 / 10) out⟩ := if_neg h.not_ge

theorem decayStep_of_near [IsStrictOrderedRing X] (h : |N.sub (approach N c target out) target| ≤ 1 / 1000) :
    decayStep N c target out = ⟨.sustain, target⟩ := if_pos (by rwa [absolute_eq_abs])

theorem decayStep_of_far [IsStrictOrderedRing X] (h : 1 / 1000 < |N.sub (approach N c target out) target|) :
    decayStep N c target out = ⟨.decay, approach N c target out⟩ :=
  if_neg (by rwa [absolute_eq_abs, not_le])

theorem releaseStep_of_le (h : approach N c 0 out ≤ 1 / 1000) : releaseStep N c out = ⟨.idle, 0⟩ := if_pos h

theorem releaseStep_of_gt (h : 1 / 1000 < approach N c 0 out) :
    releaseStep N c out = ⟨.release, approach N c 0 out⟩ := if_neg h.not_ge

end

/-- Settles O44: the step is read off stage by stage, on each side of the stage's threshold. -/
theorem envelopeProcess : Obligations.EnvelopeProcess := by
  intro X _ _ _ _ N sr a d s r out k toward up down off process
  simp only [process, Env.process_attack, Env.process_decay, Env.process_sustain, Env.process_release,
    Env.process_idle]
  exact ⟨attackStep_of_one_le, attackStep_of_lt_one, decayStep_of_near, decayStep_of_far, trivial,
    releaseStep_of_le, releaseStep_of_gt, trivial⟩

/-! ## The attack's closed form (R143, R149) -/

section

variable {X : Type} [Field X]

/-- The level `n` steps into an attack from 0 that nothing rounds or clamps: `1.3 × (1 − (1 − c)^n)`. -/
def attackLevel (c : X) (n : Nat) : X := 13 / 10 * (1 - (1 - c) ^ n)

@[simp] theorem attackLevel_zero (c : X) : attackLevel c 0 = 0 := by simp [attackLevel]

variable [LinearOrder X]

theorem attackLevel_le_succ [IsStrictOrderedRing X] {c : X} (h0 : 0 ≤ c) (h1 : c ≤ 1) (n : Nat) :
    attackLevel c n ≤ attackLevel c (n + 1) := by
  have hpow : (1 - c) ^ (n + 1) ≤ (1 - c) ^ n :=
    pow_le_pow_of_le_one (sub_nonneg.2 h1) (sub_le_self 1 h0) n.le_succ
  unfold attackLevel
  linarith

variable [FloorRing X] {N : Numerics X}

/-- The update law multiplies the distance to 1.3 by `1 − c` (R144). -/
theorem approach_attackLevel (h : N.Exact) (c : X) (n : Nat) :
    approach N c (13 / 10) (attackLevel c n) = attackLevel c (n + 1) := by
  rw [approach, h.add, h.mul, h.sub, attackLevel, attackLevel, pow_succ]
  ring

/-- The levels increase, so while the last one is below 1 no step before it was clamped. -/
theorem Env.process_iterate_attack [IsStrictOrderedRing X] (h : N.Exact) (sr : SampleRate) {a : Adsr X}
    (ha : 1 / 1000 ≤ a.attack) :
    ∀ n, attackLevel (coef N sr a.attack) n < 1 →
      (Env.process N sr a)^[n] ⟨.attack, 0⟩ = ⟨.attack, attackLevel (coef N sr a.attack) n⟩
  | 0, _ => by simp
  | n + 1, hlt => by
    obtain ⟨c0, c1⟩ := coef_strict h sr ha
    have hprev := (attackLevel_le_succ c0.le c1.le n).trans_lt hlt
    have hstep := approach_attackLevel h (coef N sr a.attack) n
    rw [Function.iterate_succ_apply', Env.process_iterate_attack h sr ha n hprev, Env.process_attack,
      attackStep_of_lt_one (hstep.trans_lt hlt), hstep]

end

/-- At the reference instance every operator is the one of the reals (R9). -/
theorem coef_reference (next : Nat → Nat × ℝ) (sr : SampleRate) (time : ℝ) :
    coef (Numerics.reference next) sr time = 1 - Real.exp (-(22 / 10) / (time * sr.hz)) := rfl

/-- Settles O46: by induction on the number of steps, none of them clamped because the coefficient lies in (0, 1)
and the closed form therefore increases; at the reference instance the coefficient is its formula. -/
theorem attackClosedForm : Obligations.AttackClosedForm := by
  refine ⟨fun X _ _ _ _ N sr a n h ha hlt => Env.process_iterate_attack h sr ha.1 n hlt, fun next sr time => ?_⟩
  rw [coef_reference]
  norm_num

end Sys2Proof.Machine

/-! Proofs of the family 43_lfo: the LFO's call (O34), its phase after n calls (O36) and its sync (O37), with the
lemmas they rest on. -/

namespace Sys2Proof.Machine

open Sys2Proof.Numerics (add_of_rnd_id div_of_rnd_id)

/-! ## One call of the LFO (R163, R164) -/

section

variable {X : Type} [Field X] [LinearOrder X] [FloorRing X] {N : Numerics X} {sr : SampleRate} {P : Params X}
  {l : Lfo X}

theorem Lfo.process_of_wrap (h : lfoNextPhase N sr P l.phase < l.phase) :
    (l.process N sr P).2 = ⟨lfoNextPhase N sr P l.phase, (N.next l.g).2, (N.next l.g).1⟩ :=
  congrArg Prod.snd (if_pos h)

theorem Lfo.process_of_not_wrap (h : ¬ lfoNextPhase N sr P l.phase < l.phase) :
    (l.process N sr P).2 = { l with phase := lfoNextPhase N sr P l.phase } :=
  congrArg Prod.snd (if_neg h)

end

/-- Settles O34: the value is the shape's own formula, and the call draws exactly in the wrapping case. -/
theorem lfoProcess : Obligations.LfoProcess := by
  intro X _ _ _ _ N sr P l
  refine Prod.ext ?value ?state
  case value =>
    rw [Lfo.process_value]
    cases P.lfoShape with
    | triangle => exact triWave_eq N l.phase
    | sine | sawUp | sawDown | square | sampleHold => rfl
  case state =>
    dsimp only
    split
    · next hwrap => exact Lfo.process_of_wrap hwrap
    · next hwrap => exact Lfo.process_of_not_wrap hwrap

/-! ## The phase where nothing is rounded (R161, R164) -/

section

variable {X : Type} [Field X] [LinearOrder X] [FloorRing X] {N : Numerics X} (h : N.rnd = id)
include h

theorem lfoNextPhase_of_rnd_id (sr : SampleRate) (P : Params X) (p : X) :
    lfoNextPhase N sr P p = Int.fract (p + P.lfoRate / rate sr) := by
  rw [lfoNextPhase, wrap1_of_rnd_id h, add_of_rnd_id h, div_of_rnd_id h]

variable [IsStrictOrderedRing X] (sr : SampleRate) (P : Params X)

theorem Lfo.process_iterate_phase {l : Lfo X} (h0 : 0 ≤ l.phase) (h1 : l.phase < 1) (n : Nat) :
    ((fun k => (k.process N sr P).2)^[n] l).phase = Int.fract (l.phase + n * (P.lfoRate / rate sr)) := by
  induction n with
  | zero => simpa using (Int.fract_eq_self.2 ⟨h0, h1⟩).symm
  | succ n ih =>
    rw [Function.iterate_succ_apply', Lfo.process_phase, lfoNextPhase_of_rnd_id h, ih, fract_fract_add,
      Nat.cast_add_one, add_one_mul, add_assoc]

/-- A phase that does not pass 1 does not fall, so the call draws nothing. -/
theorem Lfo.process_of_sum_lt_one {l : Lfo X} (h0 : 0 ≤ l.phase) (hrate : 0 ≤ P.lfoRate)
    (hsum : l.phase + P.lfoRate / rate sr < 1) :
    (l.process N sr P).2 = { l with phase := l.phase + P.lfoRate / rate sr } := by
  have hinc : 0 ≤ P.lfoRate / rate sr := div_nonneg hrate (rate_pos sr).le
  have hnext : lfoNextPhase N sr P l.phase = l.phase + P.lfoRate / rate sr := by
    rw [lfoNextPhase_of_rnd_id h, Int.fract_eq_self.2 ⟨add_nonneg h0 hinc, hsum⟩]
  have hwrap : ¬ lfoNextPhase N sr P l.phase < l.phase := by
    rw [hnext]
    exact (le_add_of_nonneg_right hinc).not_gt
  rw [Lfo.process_of_not_wrap hwrap, hnext]

/-- The sums rise with the number of calls, so while the last one is below 1 no call before it wrapped. -/
theorem Lfo.process_iterate_of_sum_lt_one {l : Lfo X} (h0 : 0 ≤ l.phase) (hrate : 0 ≤ P.lfoRate) (n : Nat)
    (hsum : l.phase + n * (P.lfoRate / rate sr) < 1) :
    (fun k => (k.process N sr P).2)^[n] l = { l with phase := l.phase + n * (P.lfoRate / rate sr) } := by
  have hinc : 0 ≤ P.lfoRate / rate sr := div_nonneg hrate (rate_pos sr).le
  induction n with
  | zero => simp
  | succ n ih =>
    rw [Nat.cast_add_one, add_one_mul, ← add_assoc] at hsum ⊢
    have hprev := (le_add_of_nonneg_right hinc).trans_lt hsum
    have hphase : 0 ≤ l.phase + n * (P.lfoRate / rate sr) := add_nonneg h0 (mul_nonneg n.cast_nonneg hinc)
    rw [Function.iterate_succ_apply', ih hprev, Lfo.process_of_sum_lt_one h sr P hphase hrate hsum]

end

/-- Settles O36: both parts by induction on the number of calls; below 1 the whole LFO but its phase is kept. -/
theorem lfoPhaseAfterCalls : Obligations.LfoPhaseAfterCalls := by
  intro X _ _ _ _ N sr P l n h h0 h1 hrate
  refine ⟨Lfo.process_iterate_phase h sr P h0 h1 n, fun hsum => ?_⟩
  have hkept := Lfo.process_iterate_of_sum_lt_one h sr P h0 hrate n hsum
  exact ⟨(congrArg Lfo.held hkept :), (congrArg Lfo.g hkept :)⟩

/-! ## `LFO_SYNC` (R166) -/

/-- Settles O37: `exec` answers the state with its LFO synced, and a sync is that record update. -/
theorem lfoSyncResetsPhase : Obligations.LfoSyncResetsPhase := exec_lfoSync

end Sys2Proof.Machine

/-! Proofs of the family 44_filter: the soft clip (O47), the state-variable filter (O48), the ladder (O49) and the
coefficients of both (O50), with the lemmas they rest on. -/

namespace Sys2Proof.Machine

open Sys2Proof.Numerics (add_of_rnd_id sub_of_rnd_id mul_of_rnd_id div_of_rnd_id)

/-! ## The quotient of the soft clip (R179) -/

section

variable {X : Type} [Field X]

/-- The soft clip's quotient in exact arithmetic, whatever its argument. -/
def clipQuotient (x : X) : X := x * (27 + x ^ 2) / (27 + 9 * x ^ 2)

theorem clipQuotient_neg (x : X) : clipQuotient (-x) = -clipQuotient x := by
  rw [clipQuotient, clipQuotient, neg_sq, neg_mul, neg_div]

variable [LinearOrder X] {N : Numerics X}

/-! ## The soft clip's branches (R179) -/

theorem softClip_of_mem {x : X} (hlo : -3 ≤ x) (hhi : x ≤ 3) :
    softClip N x = N.div (N.mul x (N.add 27 (N.mul x x))) (N.add 27 (N.mul 9 (N.mul x x))) :=
  (if_neg hhi.not_gt).trans (if_neg hlo.not_gt)

theorem softClip_of_gt {x : X} (hx : 3 < x) : softClip N x = 1 := if_pos hx

theorem softClip_of_mem_of_rnd_id (h : N.rnd = id) {x : X} (hlo : -3 ≤ x) (hhi : x ≤ 3) :
    softClip N x = clipQuotient x := by
  rw [softClip_of_mem hlo hhi, clipQuotient]
  simp only [add_of_rnd_id h, mul_of_rnd_id h, div_of_rnd_id h, sq]

variable [IsStrictOrderedRing X]

theorem softClip_of_lt {x : X} (hx : x < -3) : softClip N x = -1 :=
  (if_neg (by linarith)).trans (if_pos hx)

/-! ## Odd, increasing, bounded (R179) -/

theorem clipQuotient_three : clipQuotient (3 : X) = 1 := by norm_num [clipQuotient]

/-- The cross-multiplied difference of two values is `9 (y − x) ((9 − xy)² + 3 (y − x)²)`. -/
theorem clipQuotient_strictMono : StrictMono (clipQuotient : X → X) := by
  intro x y hxy
  have hden (z : X) : 0 < 27 + 9 * z ^ 2 := by positivity
  have hd : 0 < y - x := sub_pos.2 hxy
  have hdiff : y * (27 + y ^ 2) * (27 + 9 * x ^ 2) - x * (27 + x ^ 2) * (27 + 9 * y ^ 2)
      = 9 * (y - x) * ((9 - x * y) ^ 2 + 3 * (y - x) ^ 2) := by ring
  have hpos : 0 < 9 * (y - x) * ((9 - x * y) ^ 2 + 3 * (y - x) ^ 2) := by positivity
  exact (div_lt_div_iff₀ (hden x) (hden y)).2 (sub_pos.1 (hdiff ▸ hpos))

section

variable (h : N.rnd = id)
include h

theorem softClip_neg (x : X) : softClip N (-x) = -softClip N x := by
  rcases lt_or_ge 3 x with hgt | hhi
  · rw [softClip_of_gt hgt, softClip_of_lt (neg_lt_neg hgt)]
  · rcases lt_or_ge x (-3) with hlt | hlo
    · rw [softClip_of_lt hlt, softClip_of_gt (lt_neg_of_lt_neg hlt), neg_neg]
    · rw [softClip_of_mem_of_rnd_id h hlo hhi, softClip_of_mem_of_rnd_id h (neg_le_neg hhi) (neg_le.1 hlo),
        clipQuotient_neg]

/-- Between −3 and 3 the quotient lies between its values there, −1 and 1. -/
theorem clipBounded_of_rnd_id : ClipBounded N := by
  intro x
  rcases lt_or_ge 3 x with hgt | hhi
  · rw [softClip_of_gt hgt]
    exact ⟨by norm_num, le_rfl⟩
  · rcases lt_or_ge x (-3) with hlt | hlo
    · rw [softClip_of_lt hlt]
      exact ⟨le_rfl, by norm_num⟩
    · have hl := clipQuotient_strictMono.monotone hlo
      have hr := clipQuotient_strictMono.monotone hhi
      rw [clipQuotient_neg, clipQuotient_three] at hl
      rw [clipQuotient_three] at hr
      rw [softClip_of_mem_of_rnd_id h hlo hhi]
      exact ⟨hl, hr⟩

end

end

/-- Settles O47: the clip's three branches; where nothing is rounded the quotient is odd and strictly increasing on
the whole line, and 1 at 3. -/
theorem softClip_spec : Obligations.SoftClip := by
  intro X _ _ _ _ N
  refine ⟨fun x => ⟨softClip_of_mem, softClip_of_gt, softClip_of_lt⟩, fun h x => ?_, fun h x y hx hxy hy => ?_⟩
  · exact ⟨softClip_of_mem_of_rnd_id h, softClip_neg h x, abs_le.2 (clipBounded_of_rnd_id h x)⟩
  · rw [softClip_of_mem_of_rnd_id h hx (hxy.le.trans hy), softClip_of_mem_of_rnd_id h (hx.trans hxy.le) hy]
    exact clipQuotient_strictMono hxy

/-! ## The two cores (R175, R181, R184) -/

section

variable {X : Type} [Field X] [LinearOrder X] (N : Numerics X) (sr : SampleRate) {P : Params X} (x fc : X)
  (s : Filter X)

theorem Filter.process_of_svf (hP : P.filterType = .svf) : s.process N sr P x fc = svfProcess N sr P x fc s := by
  rw [Filter.process, hP]

theorem Filter.process_of_ladder (hP : P.filterType = .ladder) :
    s.process N sr P x fc = ladderProcess N sr P x fc s := by
  rw [Filter.process, hP]

end

/-- Settles O48: with the SVF in force the filter is its two passes, read off field by field. -/
theorem svfProcess_spec : Obligations.SvfProcess := fun _ _ _ _ _ N sr _ x fc s hP =>
  Filter.process_of_svf N sr x fc s hP

/-- Settles O49: with the ladder in force the filter is its four stages, and each stage is a soft clip. -/
theorem ladderProcess_spec : Obligations.LadderProcess := by
  intro X _ _ _ _ N sr P x fc s hP fcc wc g u stage s0 s1 s2 s3
  refine ⟨Filter.process_of_ladder N sr x fc s hP, fun hN => ?_⟩
  have hclip : ClipBounded N := hN.elim clipBounded_of_rnd_id id
  have hstage (input s : X) : |stage input s| ≤ 1 := abs_le.2 (hclip _)
  exact ⟨hstage _ _, hstage _ _, hstage _ _, hstage _ _⟩

/-! ## The coefficients where nothing is rounded (R180, R183) -/

section

variable {X : Type} [Field X] [LinearOrder X] {N : Numerics X}

section

variable (h : N.rnd = id) (hpi : ∀ x, N.timesPi x = N.pi * x) (sr : SampleRate) (fc : X)
include h hpi

theorem svfF_of_rnd_id : svfF N sr fc = 2 * N.sin (N.pi * (svfCutoff N sr fc / rate sr)) := by
  rw [svfF, mul_of_rnd_id h, div_of_rnd_id h, hpi, mul_div_assoc]

theorem ladderWc_of_rnd_id : ladderWc N sr fc = 2 * N.tan (N.pi * (ladderCutoff N sr fc / rate sr)) := by
  rw [ladderWc, mul_of_rnd_id h, div_of_rnd_id h, hpi, mul_div_assoc]

end

variable [IsStrictOrderedRing X]

/-- A cutoff clamped to [20, b × SR] is a fraction of the sample rate in (0, b]. -/
theorem clamp_div_rate_mem {b : X} (sr : SampleRate) (hb : 1 / 1000 ≤ b) (fc : X) :
    0 < clamp fc 20 (b * rate sr) / rate sr ∧ clamp fc 20 (b * rate sr) / rate sr ≤ b := by
  have hrate := rate_pos (X := X) sr
  have hge := rate_ge (X := X) sr
  obtain ⟨lo, hi⟩ := clamp_mem (x := fc) (show 20 ≤ b * rate sr by nlinarith)
  exact ⟨div_pos (by linarith) hrate, (div_le_iff₀ hrate).2 hi⟩

section

variable (h : N.rnd = id) (sr : SampleRate) (fc : X)
include h

theorem svfCutoff_div_rate_mem : 0 < svfCutoff N sr fc / rate sr ∧ svfCutoff N sr fc / rate sr ≤ 45 / 100 := by
  rw [svfCutoff, mul_of_rnd_id h, div_of_rnd_id h, show 9 / 10 * (rate sr : X) / 2 = 45 / 100 * rate sr by ring]
  exact clamp_div_rate_mem sr (by norm_num) fc

theorem ladderCutoff_div_rate_mem :
    0 < ladderCutoff N sr fc / rate sr ∧ ladderCutoff N sr fc / rate sr ≤ 225 / 1000 := by
  rw [ladderCutoff, mul_of_rnd_id h, div_of_rnd_id h,
    show 45 / 100 * (rate sr : X) / 2 = 225 / 1000 * rate sr by ring]
  exact clamp_div_rate_mem sr (by norm_num) fc

end

variable [FloorRing X] (h : N.Exact)
include h

theorem pi_pos_of_exact : 0 < N.pi := by linarith [h.pi_bounds.1]

theorem svfF_mem (sr : SampleRate) (fc : X) : 0 < svfF N sr fc ∧ svfF N sr fc ≤ 2 := by
  have hpi := pi_pos_of_exact h
  obtain ⟨r0, r1⟩ := svfCutoff_div_rate_mem (funext h.rnd_eq) sr fc
  have hsin := h.sin_pos _ (mul_pos hpi r0) (mul_lt_of_lt_one_right hpi (by linarith))
  rw [svfF_of_rnd_id (funext h.rnd_eq) h.timesPi_eq]
  exact ⟨mul_pos two_pos hsin, by linarith [(h.sin_range (N.pi * (svfCutoff N sr fc / rate sr))).2]⟩

theorem svfQ_mem {P : Params X} (hP : within 0 1 P.resonance) : 2 / 100 ≤ svfQ N P ∧ svfQ N P ≤ 2 := by
  have hmin : 0 ≤ min P.resonance (99 / 100) := le_min hP.1 (by norm_num)
  rw [svfQ, h.sub, h.mul]
  exact ⟨by linarith [min_le_right P.resonance (99 / 100)], by linarith⟩

theorem ladderWc_pos (sr : SampleRate) (fc : X) : 0 < ladderWc N sr fc := by
  have hpi := pi_pos_of_exact h
  obtain ⟨r0, r1⟩ := ladderCutoff_div_rate_mem (funext h.rnd_eq) sr fc
  rw [ladderWc_of_rnd_id (funext h.rnd_eq) h.timesPi_eq]
  exact mul_pos two_pos (h.tan_pos _ (mul_pos hpi r0) (by nlinarith))

theorem ladderG_mem (sr : SampleRate) (fc : X) : 0 < ladderG N sr fc ∧ ladderG N sr fc < 1 := by
  have hwc := ladderWc_pos h sr fc
  have hden : 0 < 1 + ladderWc N sr fc := by linarith
  rw [ladderG, h.div, h.add]
  exact ⟨div_pos hwc hden, (div_lt_one hden).2 (by linarith)⟩

theorem ladderK_mem {P : Params X} (hP : within 0 1 P.resonance) : 0 ≤ ladderK N P ∧ ladderK N P ≤ 4 := by
  rw [ladderK, h.mul]
  exact ⟨by linarith [hP.1], by linarith [hP.2]⟩

end

/-! ### At the reference instance (R9) -/

section

variable (next : Nat → Nat × ℝ) (sr : SampleRate) (fc : ℝ)

theorem reference_timesPi (x : ℝ) : (Numerics.reference next).timesPi x = (Numerics.reference next).pi * x := by
  rw [Numerics.reference_pi]
  rfl

theorem svfF_reference : svfF (Numerics.reference next) sr fc
    = 2 * Real.sin (Real.pi * (svfCutoff (Numerics.reference next) sr fc / rate sr)) := by
  rw [svfF_of_rnd_id rfl (reference_timesPi next), Numerics.reference_pi]
  rfl

theorem ladderWc_reference : ladderWc (Numerics.reference next) sr fc
    = 2 * Real.tan (Real.pi * (ladderCutoff (Numerics.reference next) sr fc / rate sr)) := by
  rw [ladderWc_of_rnd_id rfl (reference_timesPi next), Numerics.reference_pi]
  rfl

/-- The sine increases up to a quarter turn, past the largest angle. -/
theorem svfF_reference_mem : 0 < svfF (Numerics.reference next) sr fc
    ∧ svfF (Numerics.reference next) sr fc ≤ 2 * Real.sin (45 / 100 * Real.pi) := by
  have hpi := Real.pi_pos
  obtain ⟨r0, r1⟩ := svfCutoff_div_rate_mem (N := Numerics.reference next) rfl sr fc
  rw [svfF_reference]
  generalize svfCutoff (Numerics.reference next) sr fc / rate sr = r at r0 r1
  have hangle0 : 0 < Real.pi * r := mul_pos hpi r0
  have hangle1 : Real.pi * r ≤ 45 / 100 * Real.pi := by nlinarith
  have hpos := Real.sin_pos_of_pos_of_lt_pi hangle0 (by linarith)
  have hle := Real.sin_le_sin_of_le_of_le_pi_div_two (by linarith) (by linarith) hangle1
  exact ⟨by linarith, by linarith⟩

/-- The tangent increases up to a quarter turn, past the largest angle. -/
theorem ladderWc_reference_mem : 0 < ladderWc (Numerics.reference next) sr fc
    ∧ ladderWc (Numerics.reference next) sr fc ≤ 2 * Real.tan (225 / 1000 * Real.pi) := by
  have hpi := Real.pi_pos
  obtain ⟨r0, r1⟩ := ladderCutoff_div_rate_mem (N := Numerics.reference next) rfl sr fc
  rw [ladderWc_reference]
  generalize ladderCutoff (Numerics.reference next) sr fc / rate sr = r at r0 r1
  have hangle0 : 0 < Real.pi * r := mul_pos hpi r0
  have hangle1 : Real.pi * r ≤ 225 / 1000 * Real.pi := by nlinarith
  have hpos := Real.tan_pos_of_pos_of_lt_pi_div_two hangle0 (by linarith)
  have hle := Real.strictMonoOn_tan.monotoneOn ⟨by linarith, by linarith⟩ ⟨by linarith, by linarith⟩ hangle1
  exact ⟨by linarith, by linarith⟩

end

/-- Settles O50: a clamped cutoff is a fraction of the sample rate, so the angles lie where the sine and the tangent
are positive, and at the reference instance where they increase. -/
theorem filterCoefficients : Obligations.FilterCoefficients :=
  ⟨fun _ _ _ _ _ _ sr _ fc h hP => ⟨svfF_mem h sr fc, svfQ_mem h hP, ladderG_mem h sr fc, ladderK_mem h hP⟩,
    fun next sr fc => ⟨svfF_reference_mem next sr fc, ladderWc_reference_mem next sr fc⟩⟩

end Sys2Proof.Machine

/-! Proofs of the family 45_voice: a voice's sample (O25) and the frame of `TICK` (O26), with the lemmas they rest
on. -/

namespace Sys2Proof.Machine

/-- Settles O25: the definition's mix, its modulated cutoff and its envelope registers are the rule's formulas, and
the calls on the voice's units stand in the rule's order. -/
theorem voiceProcessOrder : Obligations.VoiceProcessOrder := fun _ _ _ _ _ _ _ _ _ _ => rfl

/-! ## What a tick leaves unchanged (R206, R221) -/

/-- A tick, whether it processes the voice or not, keeps what a note-on gave it: flag, note, velocity, increments. -/
theorem tickVoice_frame {X : Type} [Field X] [LinearOrder X] [FloorRing X] (N : Numerics X) (c : Cfg X)
    (P : Params X) (l : Lfo X) (v : Voice X) : let u := tickVoice N c P l v
    u.active = v.active ∧ u.note = v.note ∧ u.vel = v.vel ∧ u.osc1.inc = v.osc1.inc
    ∧ u.osc2.inc = v.osc2.inc ∧ u.sec.inc = v.sec.inc := by
  cases hv : voiceActive v with
  | false => simp [tickVoice_of_not_active c P l hv]
  | true => simp [tickVoice, hv]

/-- A tick writes the LFO, the pool, the three effects and the frames. -/
theorem exec_tick_frame {s t : State} (h : exec .tick s = .next t) :
    t.cfg = s.cfg ∧ t.params = s.params ∧ t.presetIndex = s.presetIndex ∧ t.stream = s.stream := by
  cases (exec_tick s).symm.trans h
  exact ⟨rfl, rfl, rfl, rfl⟩

/-- Settles O26: a tick maps `tickVoice` over the pool, which keeps a voice that is not active and what a note-on gave
every other. -/
theorem tickLeavesUnchanged : Obligations.TickLeavesUnchanged := by
  intro s t h
  have hpool := exec_tick_voices h
  obtain ⟨hcfg, hparams, hpreset, hstream⟩ := exec_tick_frame h
  refine ⟨hcfg, hparams, hpreset, hstream, by rw [hpool, List.length_map], fun i v u hv hu => ?_⟩
  rw [hpool, List.getElem?_map, hv] at hu
  cases hu
  exact ⟨tickVoice_of_not_active s.cfg s.params s.lfo, tickVoice_frame s.num s.cfg s.params s.lfo v⟩

end Sys2Proof.Machine

/-! Proofs of the family 46_voice_manager: the commands NOTE_ON (O19, O20), NOTE_OFF (O21), ALL_NOTES_OFF (O22),
LOAD_PRESET (O23) and TICK (O24, O33), with the lemmas they rest on. -/

namespace Sys2Proof.Machine

/-! ## NOTE_ON: the slot (R216, R217) -/

section

variable {X : Type} [Field X] {N : Numerics X} {sr : SampleRate} {note : Nat} {vel : X}

theorem allocate_of_free {i : Nat} {v : Voice X} {vs : List (Voice X)} (hv : vs[i]? = some v)
    (hfree : voiceActive v = false) (hbefore : ∀ j, j < i → ∀ u, vs[j]? = some u → voiceActive u = true) :
    allocate N sr note vel vs = vs.set i (v.noteOn N sr note vel) := by
  have hslot : freeSlot vs = some i := freeSlot_eq_some.2 ⟨⟨v, hv, hfree⟩, hbefore⟩
  simp only [allocate, hslot, updateVoice_eq_set hv]

theorem allocate_of_full {v : Voice X} {rest : List (Voice X)} (h : ∀ u ∈ v :: rest, voiceActive u = true) :
    allocate N sr note vel (v :: rest) = v.kill.noteOn N sr note vel :: rest := by
  simp only [allocate, freeSlot_eq_none.2 h, updateVoice]

/-- With the pool's busy voices in front, the note lands right behind them. -/
theorem allocate_append {busy rest : List (Voice X)} {v : Voice X} (hbusy : ∀ u ∈ busy, voiceActive u = true)
    (hfree : voiceActive v = false) :
    allocate N sr note vel (busy ++ v :: rest) = busy ++ v.noteOn N sr note vel :: rest := by
  rw [allocate_of_free (i := busy.length) (v := v) (by simp) hfree]
  · simp
  · intro j hj u hu
    rw [List.getElem?_append_left hj] at hu
    exact hbusy u (List.mem_of_getElem? hu)

/-! ## NOTE_ON: the note (R202, R204) -/

theorem noteFrequency_eq (N : Numerics X) (note : Nat) :
    noteFrequency N note = N.mul 440 (N.exp2 (N.div ((note : X) - 69) 12)) := by
  simp [noteFrequency]

theorem detune_eq [LinearOrder X] [IsStrictOrderedRing X] : (detune : X) = 1002 / 1000 := by norm_num [detune]

/-- Everything that a note-on writes, with the detuning as R202 writes it. -/
theorem Voice.noteOn_eq [LinearOrder X] [IsStrictOrderedRing X] (N : Numerics X) (sr : SampleRate) (note : Nat)
    (vel : X) (v : Voice X) : v.noteOn N sr note vel =
      { active := true
        note := note
        vel := vel
        osc1 := { v.osc1 with inc := N.div (noteFrequency N note) (rate sr) }
        osc2 := { v.osc2 with inc := N.div (N.mul (noteFrequency N note) (1002 / 1000)) (rate sr) }
        sec := { v.sec with inc := N.div (noteFrequency N note) (rate sr) }
        flt := Filter.zero
        aenv := { v.aenv with stage := .attack }
        fenv := { v.fenv with stage := .attack } } := by
  rw [← detune_eq]; rfl

end

theorem noteFrequency_reference (next : Nat → Nat × ℝ) (note : Nat) :
    noteFrequency (Numerics.reference next) note = 440 * (2 : ℝ) ^ (((note : ℝ) - 69) / 12) :=
  noteFrequency_eq _ note

/-- Settles O19: the allocator's choice is the first free slot or, in a full pool, slot 0 after a kill, and what a
start writes is `Voice.noteOn_eq`. -/
theorem noteOnAllocates : Obligations.NoteOnAllocates := by
  refine ⟨fun note velocity s => ?_, fun next note velocity s i v hv hfree hbefore => ?_⟩
  · intro N f sr started
    have hstarted (v : Voice Scalar) :
        v.noteOn N s.cfg.sr note (clamp (operandQ velocity) 0 1) = started v := by
      rw [Voice.noteOn_eq, noteFrequency_eq]; rfl
    refine ⟨fun i v hv hfree hbefore => ?_, fun v rest hs hfull => ?_⟩
    · rw [exec_noteOn, allocate_of_free hv hfree hbefore, hstarted]
    · rw [exec_noteOn, hs, allocate_of_full (hs ▸ hfull), hstarted]; rfl
  · refine ⟨v.noteOn (Numerics.reference next) s.cfg.sr note (clamp (operandQ velocity) 0 1), ?_, ?_⟩
    · show (allocate (Numerics.reference next) s.cfg.sr note (clamp (operandQ velocity) 0 1) s.voices)[i]? = _
      obtain ⟨hi, -⟩ := List.getElem?_eq_some_iff.1 hv
      rw [allocate_of_free hv hfree hbefore, List.getElem?_set_self hi]
    · rw [Voice.noteOn_eq, noteFrequency_reference]
      exact ⟨rfl, rfl, rfl⟩

/-! ## NOTE_ON: more notes than voices (R217) -/

theorem exec_noteOn_append (note : Nat) (x : BitVec 32) {s : State} {busy rest : List (Voice Scalar)}
    {v : Voice Scalar} (hs : s.voices = busy ++ v :: rest) (hbusy : ∀ u ∈ busy, voiceActive u = true)
    (hfree : voiceActive v = false) : exec (.noteOn note x) s = .next { s with
      voices := busy ++ v.noteOn s.num s.cfg.sr note (clamp (operandQ x) 0 1) :: rest } := by
  rw [exec_noteOn, hs, allocate_append hbusy hfree]

theorem exec_noteOn_full (note : Nat) (x : BitVec 32) {s : State} {v : Voice Scalar} {rest : List (Voice Scalar)}
    (hs : s.voices = v :: rest) (hfull : ∀ u ∈ v :: rest, voiceActive u = true) :
    exec (.noteOn note x) s = .next { s with
      voices := v.kill.noteOn s.num s.cfg.sr note (clamp (operandQ x) 0 1) :: rest } := by
  rw [exec_noteOn, hs, allocate_of_full hfull]

/-- Settles O20: each of the first four notes lands behind the busy voices in front of it; the pool is full then, and
stays full when slot 0 is taken over. -/
theorem fifthNoteStealsSlotZero : Obligations.FifthNoteStealsSlotZero := by
  intro s n1 n2 n3 n4 n5 n6 x1 x2 x3 x4 x5 x6 hlen hfree
  obtain ⟨v1, v2, v3, v4, hs⟩ := List.length_eq_four.1 hlen
  obtain ⟨free1, free2, free3, free4⟩ : voiceActive v1 = false ∧ voiceActive v2 = false ∧ voiceActive v3 = false
      ∧ voiceActive v4 = false := by simpa [hs] using hfree
  refine ⟨_, _, _, _, _, _, exec_noteOn_append n1 x1 (busy := []) hs ?_ free1,
    exec_noteOn_append n2 x2 (busy := [_]) rfl ?_ free2, exec_noteOn_append n3 x3 (busy := [_, _]) rfl ?_ free3,
    exec_noteOn_append n4 x4 (busy := [_, _, _]) rfl ?_ free4, rfl, ?_, exec_noteOn_full n5 x5 rfl ?_, rfl, rfl,
    exec_noteOn_full n6 x6 rfl ?_, rfl, rfl⟩ <;> simp

/-! ## NOTE_OFF and ALL_NOTES_OFF (R203, R218, R219) -/

section

variable {X : Type}

theorem Env.noteOff_eq (e : Env X) : e.noteOff = if e.stage = .idle then e else { e with stage := .release } := by
  split
  next h => exact Env.noteOff_of_idle h
  next h => exact Env.noteOff_of_active h

theorem Voice.noteOff_noteOff (v : Voice X) : v.noteOff.noteOff = v.noteOff := by
  simp only [Voice.noteOff, Env.noteOff_noteOff]

/-- A voice released because it was active is as it was after a second release, or not active and left alone. -/
theorem ite_noteOff_ite_noteOff (v : Voice X) :
    (let u := if voiceActive v then v.noteOff else v; if voiceActive u then u.noteOff else u)
      = if voiceActive v then v.noteOff else v := by
  cases hv : voiceActive v <;> simp [hv, Voice.noteOff_noteOff]

end

/-- Settles O21: `voiceActive` and the envelope's event, written out. -/
theorem noteOffReleases : Obligations.NoteOffReleases := by
  intro note s off
  rw [exec_noteOff]
  simp only [Bool.and_eq_true, decide_eq_true_eq, voiceActive_iff, and_assoc, Voice.noteOff, Env.noteOff_eq, off]

/-- Settles O22: each active voice is released, and a release of what is released already changes nothing. -/
theorem allNotesOffReleases : Obligations.AllNotesOffReleases := by
  intro s off
  refine ⟨?_, fun t h => ?_⟩
  · rw [exec_allNotesOff]
    simp only [voiceActive_iff, Voice.noteOff, Env.noteOff_eq, off]
  · cases (exec_allNotesOff s).symm.trans h
    rw [exec_allNotesOff, List.map_map]
    simp only [Function.comp_def, ite_noteOff_ite_noteOff]

/-! ## LOAD_PRESET (R220) -/

/-- The 18 writes are to 18 different registers, and none is to the filter type that bounds two of them. -/
theorem applyPreset_eq {X : Type} [Field X] [LinearOrder X] [FloorRing X] (N : Numerics X) (sr : SampleRate)
    (r : Preset X) (P : Params X) : Params.applyPreset N sr r P = { P with
      mixSine := clamp r.mixSine 0 1
      mixTri := clamp r.mixTri 0 1
      mixSaw := clamp r.mixSaw 0 1
      mixSquare := clamp r.mixSquare 0 1
      mixNoise := clamp r.mixNoise 0 1
      cutoff := clamp r.cutoff 20 (cutoffMax N sr P)
      resonance := clamp r.resonance 0 (resonanceMax P)
      drive := clamp r.drive 0 1
      ampAttack := clamp r.ampAttack (1 / 1000) 10
      ampDecay := clamp r.ampDecay (1 / 1000) 10
      ampSustain := clamp r.ampSustain 0 1
      ampRelease := clamp r.ampRelease (1 / 1000) 10
      fltAttack := clamp r.fltAttack (1 / 1000) 10
      fltDecay := clamp r.fltDecay (1 / 1000) 10
      fltSustain := clamp r.fltSustain 0 1
      fltRelease := clamp r.fltRelease (1 / 1000) 10
      envDepth := clamp r.envDepth 0 1
      masterVolume := clamp r.masterVolume 0 1 } := rfl

/-- Settles O23: an index beyond the table finds no record, and the record's writes are independent of each other. -/
theorem loadPresetWrites : Obligations.LoadPresetWrites := by
  refine fun index s => ⟨fun h => exec_loadPreset_none (List.getElem?_eq_none h), fun r hr => ?_⟩
  rw [exec_loadPreset_some hr, applyPreset_eq, cutoffMax_eq, resonanceMax_eq]
  rfl

/-! ## TICK (R221) -/

section

variable {X : Type} [Field X] [LinearOrder X] [FloorRing X]

theorem monoTick_eq (N : Numerics X) (s : StateOf X) :
    let l := s.lfo.process N s.cfg.sr s.params
    let m := N.mul l.1 s.params.lfoDepth
    let sum := (s.voices.filter voiceActive).foldl (fun acc v => N.add acc (v.process N s.cfg s.params m).1) 0
    monoTick N s = (N.mul (N.mul sum s.params.masterVolume) (1 / 2), l.2,
      s.voices.map fun v => if voiceActive v then (v.process N s.cfg s.params m).2 else v) := by
  simp only [monoTick, sumVoices_eq]

end

/-- Settles O24: the walk over the pool is a fold over its active voices and a map, and the effects follow it in the
rule's order. -/
theorem tickProducesFrame : Obligations.TickProducesFrame := by
  intro s N P l m heard sum mono c d r
  rw [exec_tick, tick, monoTick_eq]
  rfl

/-! ## While CHORUS_MIX is 0, left is right (R222, R241, R245, R249) -/

section

variable {X : Type} [Field X] [LinearOrder X] [FloorRing X] (N : Numerics X) (sr : SampleRate) {P : Params X} (x : X)

omit [LinearOrder X] [FloorRing X] in
/-- A crossfade at 0 does not hear the wet signal, in any number format. -/
theorem crossfade_zero_congr (dry wet wet' : X) : crossfade N 0 dry wet = crossfade N 0 dry wet' := by
  simp only [crossfade, Numerics.mul, zero_mul]

/-- The two channels differ in their rings and phases, which only the wet signal hears. -/
theorem Chorus.process_mono (h : P.chorusMix = 0) (c : Chorus X) : ∃ y, (c.process N sr P ⟨x, x⟩).1 = ⟨y, y⟩ := by
  simp only [Chorus.process, chorusChannel, h, Frame.mk.injEq]
  exact ⟨_, rfl, crossfade_zero_congr N x _ _⟩

theorem Delay.process_mono {d : Delay X} (h : d.bufL = d.bufR) :
    (∃ y, (d.process N sr P ⟨x, x⟩).1 = ⟨y, y⟩)
    ∧ (d.process N sr P ⟨x, x⟩).2.bufL = (d.process N sr P ⟨x, x⟩).2.bufR := by
  simp only [Delay.process, h, and_true]
  exact ⟨_, rfl⟩

omit [FloorRing X] in
/-- Both channels hear the one network. -/
theorem Reverb.process_mono (v : Reverb X) : ∃ y, (v.process N P ⟨x, x⟩).1 = ⟨y, y⟩ := ⟨_, rfl⟩

theorem effectsTick_mono {s : StateOf X} (hmix : s.params.chorusMix = 0) (hrings : s.delay.bufL = s.delay.bufR) :
    (∃ y, (effectsTick N s ⟨x, x⟩).1 = ⟨y, y⟩)
    ∧ (effectsTick N s ⟨x, x⟩).2.2.1.bufL = (effectsTick N s ⟨x, x⟩).2.2.1.bufR := by
  obtain ⟨c, hc⟩ := Chorus.process_mono N s.cfg.sr x hmix s.chorus
  obtain ⟨⟨d, hd⟩, hstored⟩ := Delay.process_mono N s.cfg.sr (P := s.params) c hrings
  simp only [effectsTick, hc, hd, hstored, and_true]
  exact Reverb.process_mono N d s.reverb

end

/-- No command but `TICK` stores to the delay's rings; `FX_CLEAR` can empty both. -/
theorem exec_delay_of_ne_tick {i : Instr} {s t : State} (h : exec i s = .next t) (hi : i ≠ .tick) :
    t.delay = s.delay ∨ t.delay = s.delay.clear := by
  by_cases hdelay : t.delay = s.delay
  · exact .inl hdelay
  · obtain ⟨-, -, -, -, -, -, heffects, -⟩ := whoWritesWhat i s t h
    obtain ⟨mask, rfl⟩ := (heffects (.inr (.inl hdelay))).resolve_left hi
    cases (exec_fxClear mask s).symm.trans h
    exact (ite_eq_or_eq ..).symm

/-- Settles O33: through the three effects equal channels stay equal, and every other command leaves the two delay
rings alone or empties both. -/
theorem monoWhileChorusIsDry : Obligations.MonoWhileChorusIsDry := by
  intro i s t h hrings hmix
  by_cases hi : i = .tick
  · subst hi
    obtain ⟨⟨y, hframe⟩, hstored⟩ := effectsTick_mono s.num (monoTick s.num s.toStateOf).1 (hmix rfl) hrings
    cases (exec_tick s).symm.trans h
    exact ⟨hstored, fun _ => ⟨y, congrArg (fun f => s.frames ++ [f]) hframe⟩⟩
  · refine ⟨?_, fun htick => absurd htick hi⟩
    rcases exec_delay_of_ne_tick h hi with hd | hd <;> rw [hd]
    · exact hrings
    · rfl

end Sys2Proof.Machine

/-! Proofs of the family 47_effects: the dry passthrough (O32), the chorus (O54), the delay (O55), the reverb (O57) and
the command FX_CLEAR (O58), with the lemmas they rest on. -/

namespace Sys2Proof.Machine

/-! ## The three effects, written out (R241, R245, R247, R249) -/

/-- Over an interval that is not empty `clamp` is the usual minimum and maximum. -/
theorem clamp_eq_max_min {α : Type} [LinearOrder α] {x lo hi : α} (h : lo ≤ hi) :
    clamp x lo hi = max lo (min x hi) := by
  rcases lt_or_ge x lo with hlo | hlo
  · rw [clamp_of_lt hlo, min_eq_left (hlo.le.trans h), max_eq_left hlo.le]
  · rcases lt_or_ge hi x with hhi | hhi
    · rw [clamp_of_gt h hhi, min_eq_right hhi.le, max_eq_right h]
    · rw [clamp_of_mem hlo hhi, min_eq_left hhi, max_eq_right hlo]

theorem delaySamples_eq {X : Type} [Field X] [LinearOrder X] [FloorRing X] (N : Numerics X) (sr : SampleRate)
    (P : Params X) : delaySamples N sr P =
      max 1 (min ⌊N.mul P.delayTime sr.hz⌋ (((2 * sr.hz : Nat) : Int) - 1)) := by
  rw [delaySamples, delayLen_eq]
  exact clamp_eq_max_min (by cases sr <;> decide)

/-- Settles O54: the two channels are the rule's formulas with the chorus's constants, each at its own rate. -/
theorem chorusProcess : Obligations.ChorusProcess := fun _ _ _ _ _ _ _ _ _ _ => rfl

/-- Settles O55: the two channels are the rule's formulas, once the ring's length and `D` are written out. -/
theorem delayProcess : Obligations.DelayProcess := by
  intro X _ _ _ _ N sr P x d
  simp only [Delay.process, delayChannel, delaySamples_eq, delayLen_eq]
  rfl

/-- Settles O57: the network's units are called in the rule's order, each with its own length and constant. -/
theorem reverbProcess : Obligations.ReverbProcess := fun _ _ _ _ _ _ _ _ _ => rfl

/-! ## The dry chain (R240, R251) -/

section

variable {X : Type} [Field X] [LinearOrder X] [IsStrictOrderedRing X] [FloorRing X] {N : Numerics X} (h : N.Lawful)
  {P : Params X} {x : Frame X} (hL : N.inT x.left) (hR : N.inT x.right)
include h hL hR

theorem Chorus.process_dry (sr : SampleRate) (hmix : P.chorusMix = 0) (c : Chorus X) :
    (c.process N sr P x).1 = x := by
  simp only [Chorus.process, chorusChannel, hmix, crossfade_zero h hL, crossfade_zero h hR]

theorem Delay.process_dry (sr : SampleRate) (hmix : P.delayMix = 0) (d : Delay X) : (d.process N sr P x).1 = x := by
  simp only [Delay.process, delayChannel, hmix, crossfade_zero h hL, crossfade_zero h hR]

theorem Reverb.process_dry (hmix : P.reverbMix = 0) (v : Reverb X) : (v.process N P x).1 = x := by
  simp only [Reverb.process, hmix, crossfade_zero h hL, crossfade_zero h hR]

theorem effectsTick_dry {s : StateOf X} (hchorus : s.params.chorusMix = 0) (hdelay : s.params.delayMix = 0)
    (hreverb : s.params.reverbMix = 0) : (effectsTick N s x).1 = x := by
  simp only [effectsTick, Chorus.process_dry h hL hR s.cfg.sr hchorus, Delay.process_dry h hL hR s.cfg.sr hdelay,
    Reverb.process_dry h hL hR hreverb]

end

/-- The mono sum is a product, rounded as every product is. -/
theorem inT_monoTick {X : Type} [Field X] [LinearOrder X] [FloorRing X] {N : Numerics X} (h : N.Lawful)
    (s : StateOf X) : N.inT (monoTick N s).1 := h.inT_mul _ _

/-- Settles O32: at mix 0 each effect's crossfade gives back its dry signal, and the mono sum is a number of the
format. -/
theorem dryPassthrough : Obligations.DryPassthrough := by
  intro s hchorus hdelay hreverb
  have hN : s.num.Lawful := Config.num_lawful s.cfg.num
  have hdry : ∀ x : Frame Scalar, s.num.inT x.left → s.num.inT x.right →
      (effectsTick s.num s.toStateOf x).1 = x :=
    fun x hL hR => effectsTick_dry hN hL hR hchorus hdelay hreverb
  have hmono := inT_monoTick hN s.toStateOf
  exact ⟨hdry, _, exec_tick s, _, rfl, hmono, congrArg (fun f => s.frames ++ [f]) (hdry ⟨_, _⟩ hmono hmono)⟩

/-! ## FX_CLEAR (R252) -/

section

variable {X : Type}

theorem Chorus.clear_clear (c : Chorus X) : c.clear.clear = c.clear := rfl

theorem Delay.clear_clear (d : Delay X) : d.clear.clear = d.clear := rfl

theorem Reverb.clear_clear (v : Reverb X) : v.clear.clear = v.clear := rfl

/-- What is idempotent stays so under a condition. -/
theorem ite_ite_of_idempotent {α : Type} {f : α → α} (hf : ∀ a, f (f a) = f a) (p : Prop) [Decidable p] (a : α) :
    (if p then f (if p then f a else a) else if p then f a else a) = if p then f a else a := by
  split
  · exact hf a
  · rfl

variable [Field X]

/-- What a bit of the mask does to the chorus: an emptied ring reads 0, and what is not named is as before. -/
theorem Chorus.ite_clear (b : Bool) (c : Chorus X) : let c' := if b then c.clear else c
    (c'.w = c.w ∧ c'.phL = c.phL ∧ c'.phR = c.phR)
    ∧ (b = true → ∀ a, c'.bufL.read a = 0 ∧ c'.bufR.read a = 0) ∧ (b = false → c' = c) := by
  cases b with
  | false => exact ⟨⟨rfl, rfl, rfl⟩, nofun, fun _ => rfl⟩
  | true => exact ⟨⟨rfl, rfl, rfl⟩, fun _ _ => ⟨rfl, rfl⟩, nofun⟩

theorem Delay.ite_clear (b : Bool) (d : Delay X) : let d' := if b then d.clear else d
    d'.w = d.w ∧ (b = true → ∀ a, d'.bufL.read a = 0 ∧ d'.bufR.read a = 0) ∧ (b = false → d' = d) := by
  cases b with
  | false => exact ⟨rfl, nofun, fun _ => rfl⟩
  | true => exact ⟨rfl, fun _ _ => ⟨rfl, rfl⟩, nofun⟩

theorem Reverb.ite_clear (b : Bool) (v : Reverb X) : let v' := if b then v.clear else v
    (v'.comb0.pos = v.comb0.pos ∧ v'.comb1.pos = v.comb1.pos ∧ v'.comb2.pos = v.comb2.pos
      ∧ v'.comb3.pos = v.comb3.pos ∧ v'.ap0.pos = v.ap0.pos ∧ v'.ap1.pos = v.ap1.pos)
    ∧ (b = true → ∀ a, v'.comb0.buf.read a = 0 ∧ v'.comb1.buf.read a = 0 ∧ v'.comb2.buf.read a = 0
      ∧ v'.comb3.buf.read a = 0 ∧ v'.ap0.buf.read a = 0 ∧ v'.ap1.buf.read a = 0)
    ∧ (b = false → v' = v) := by
  cases b with
  | false => exact ⟨⟨rfl, rfl, rfl, rfl, rfl, rfl⟩, nofun, fun _ => rfl⟩
  | true => exact ⟨⟨rfl, rfl, rfl, rfl, rfl, rfl⟩, fun _ _ => ⟨rfl, rfl, rfl, rfl, rfl, rfl⟩, nofun⟩

end

/-- A second `FX_CLEAR` of the same mask finds the named rings empty. -/
theorem exec_fxClear_fxClear {mask : BitVec 3} {s t : State} (h : exec (.fxClear mask) s = .next t) :
    exec (.fxClear mask) t = .next t := by
  cases (exec_fxClear mask s).symm.trans h
  rw [exec_fxClear]
  simp only [ite_ite_of_idempotent Chorus.clear_clear, ite_ite_of_idempotent Delay.clear_clear,
    ite_ite_of_idempotent Reverb.clear_clear]

/-- Settles O58: each effect is cleared or left as it is, by its bit of the mask, and a cleared ring reads 0. -/
theorem fxClearZeroesRings : Obligations.FxClearZeroesRings := by
  intro mask s
  have ht := exec_fxClear mask s
  obtain ⟨⟨hw, hphL, hphR⟩, chorusOn, chorusOff⟩ := s.chorus.ite_clear (maskChorus mask)
  obtain ⟨delayW, delayOn, delayOff⟩ := s.delay.ite_clear (maskDelay mask)
  obtain ⟨reverbPos, reverbOn, reverbOff⟩ := s.reverb.ite_clear (maskReverb mask)
  exact ⟨_, ht, rfl, ⟨hw, hphL, hphR, delayW, reverbPos⟩, chorusOn, chorusOff, delayOn, delayOff, reverbOn, reverbOff,
    exec_fxClear_fxClear ht⟩

end Sys2Proof.Machine

/-! Proofs of the family 48_parameters: the registers' writes (O12, O14, O15, O17), the LFO's normalised rate (O16) and
the idempotence of a write (O18), with the lemmas they rest on. -/

namespace Sys2Proof.Machine

/-! ## One register each (R266 to R271, R278 to R290, R296, R298 to R308) -/

/-- Settles O12: each command is one register write, clamped to [0, 1]. -/
theorem setpMixWrites : Obligations.SetpMixWrites := fun _ _ => ⟨rfl, rfl, rfl, rfl, rfl, rfl⟩

/-- Settles O14: each command is one register write, times and sustain levels with their own interval. -/
theorem setpEnvelopeWrites : Obligations.SetpEnvelopeWrites := fun _ _ => ⟨rfl, rfl, rfl, rfl, rfl, rfl, rfl, rfl⟩

/-- Settles O17: each command is one register write; the longest delay is the constant of 2 seconds. -/
theorem setpEffectWrites : Obligations.SetpEffectWrites := fun _ _ => ⟨rfl, rfl, rfl, rfl, rfl, rfl, rfl, rfl⟩

theorem exec_setpSecMode (val : BitVec 32) (s : State) : exec (.setpSecMode val) s =
    .next { s with params := Params.setSecMode (secModeOf (operandE 3 val)) s.params } := rfl

theorem exec_setpLfoShape (val : BitVec 32) (s : State) : exec (.setpLfoShape val) s =
    .next { s with params := Params.setLfoShape (lfoShapeOf (operandE 6 val)) s.params } := rfl

/-- An E(3) operand beyond the last mode selects the last one (R94, R286). -/
theorem secModeOf_operandE (val : BitVec 32) : secModeOf (operandE 3 val) = if val.toNat = 0 then .pm
    else if val.toNat = 1 then .morph else .noise := by
  rw [operandE]
  rcases val.toNat with _ | _ | n <;> simp [secModeOf]

/-- An E(6) operand beyond the last shape selects the last one (R94, R298). -/
theorem lfoShapeOf_operandE (val : BitVec 32) : lfoShapeOf (operandE 6 val) = if val.toNat = 0 then .sine
    else if val.toNat = 1 then .triangle else if val.toNat = 2 then .sawUp
    else if val.toNat = 3 then .sawDown else if val.toNat = 4 then .square else .sampleHold := by
  rw [operandE]
  rcases val.toNat with _ | _ | _ | _ | _ | n <;> simp [lfoShapeOf]

/-- Settles O15: each command is one register write, the two enumerations with their enumerators written out. -/
theorem setpSecondaryLfoMasterWrites : Obligations.SetpSecondaryLfoMasterWrites := by
  intro val s v n
  refine ⟨?_, rfl, rfl, rfl, rfl, rfl, ?_, rfl, rfl⟩
  · rw [exec_setpSecMode, secModeOf_operandE]; rfl
  · rw [exec_setpLfoShape, lfoShapeOf_operandE]; rfl

/-! ## The LFO's normalised rate (R297) -/

theorem clamp_of_le {α : Type} [LinearOrder α] {x lo hi : α} (hlo : lo ≤ hi) (h : x ≤ lo) : clamp x lo hi = lo := by
  rw [clamp_eq_max_min hlo, max_eq_left (min_le_of_left_le h)]

theorem clamp_of_ge {α : Type} [LinearOrder α] {x lo hi : α} (hlo : lo ≤ hi) (h : hi ≤ x) : clamp x lo hi = hi := by
  rw [clamp_eq_max_min hlo, min_eq_right h, max_eq_right hlo]

section

variable {X : Type} [Field X] [LinearOrder X] [FloorRing X] {N : Numerics X}

/-- The rate that the write port LFO_RATE_NORM stores for a normalised `p`, before the register's clamp (R297). -/
def lfoRateOfNorm (N : Numerics X) (p : X) : X := N.mul (1 / 10) (N.exp (N.mul p N.ln500))

omit [FloorRing X] in
/-- The register's write is a clamp of that rate (R297). -/
theorem Params.setLfoRateNorm_eq (N : Numerics X) (v : X) (P : Params X) : Params.setLfoRateNorm N v P =
    { P with lfoRate := clamp (lfoRateOfNorm N (clamp v 0 1)) (1 / 100) 100 } := rfl

theorem lfoRateOfNorm_exact (h : N.Exact) (p : X) : lfoRateOfNorm N p = 1 / 10 * N.exp (p * N.ln500) := by
  rw [lfoRateOfNorm, h.mul, h.mul]

theorem lfoRateOfNorm_zero (h : N.Exact) : lfoRateOfNorm N 0 = 1 / 10 := by
  rw [lfoRateOfNorm_exact h, zero_mul, h.exp_zero, mul_one]

theorem lfoRateOfNorm_one (h : N.Exact) : lfoRateOfNorm N 1 = 50 := by
  rw [lfoRateOfNorm_exact h, one_mul, h.exp_ln500]
  norm_num

variable [IsStrictOrderedRing X]

/-- The rate grows with `p`, from 0.1 Hz to 50 Hz. -/
theorem lfoRateOfNorm_mem (h : N.Exact) {p : X} (hp : within 0 1 p) : within (1 / 10) 50 (lfoRateOfNorm N p) := by
  have hln : 0 ≤ N.ln500 := by linarith [h.ln500_bounds.1]
  have hmono : ∀ {p q : X}, p ≤ q → lfoRateOfNorm N p ≤ lfoRateOfNorm N q := fun hpq => by
    rw [lfoRateOfNorm_exact h, lfoRateOfNorm_exact h]
    exact mul_le_mul_of_nonneg_left (h.exp_mono _ _ (mul_le_mul_of_nonneg_right hpq hln)) (by norm_num)
  exact ⟨(lfoRateOfNorm_zero h).symm.trans_le (hmono hp.1), (hmono hp.2).trans_eq (lfoRateOfNorm_one h)⟩

/-- Where nothing is rounded the register's clamp never binds. -/
theorem clamp_lfoRateOfNorm (h : N.Exact) {p : X} (hp : within 0 1 p) :
    clamp (lfoRateOfNorm N p) (1 / 100) 100 = lfoRateOfNorm N p := by
  obtain ⟨hlo, hhi⟩ := lfoRateOfNorm_mem h hp
  exact clamp_of_mem (by linarith) (by linarith)

end

/-- The rate at the reference instance: its laws hold with any generator, and no generator is asked. -/
theorem clamp_lfoRateOfNorm_reference (next : Nat → Nat × ℝ) {p : ℝ} (hp : within 0 1 p) :
    clamp (lfoRateOfNorm (Numerics.reference next) p) (1 / 100) 100 = 1 / 10 * 500 ^ p := by
  have hexact : (Numerics.reference fun g => (g, 0)).Exact := Numerics.reference_exact fun _ => by norm_num
  calc clamp (lfoRateOfNorm (Numerics.reference next) p) (1 / 100) 100
      = lfoRateOfNorm (Numerics.reference next) p := clamp_lfoRateOfNorm hexact hp
    _ = 1 / 10 * Real.exp (Real.log 500 * p) := by rw [mul_comm (Real.log 500)]; rfl
    _ = 1 / 10 * 500 ^ p := by rw [Real.rpow_def_of_pos (by norm_num)]

/-- Settles O16: the exponential of `p × ln 500` increases from 1 to 500 as `p` does from 0 to 1, and in the reals it
is the power. -/
theorem lfoRateNormMapsExponentially : Obligations.LfoRateNormMapsExponentially := by
  refine ⟨fun val s => ?_, fun next val s => ?_⟩
  · intro v p r
    refine ⟨rfl, fun hformat => ?_⟩
    have hN : s.num.Exact := by rw [State.num, hformat]; exact Config.num_exact
    have hp : within 0 1 p := clamp_unit v
    have hr : r = lfoRateOfNorm s.num p := clamp_lfoRateOfNorm hN hp
    obtain ⟨hlo, hhi⟩ := lfoRateOfNorm_mem hN hp
    rw [hr]
    refine ⟨lfoRateOfNorm_exact hN p, hlo, hhi, fun hv => ?_, fun hv => ?_, ?_⟩
    · rw [show p = 0 from clamp_of_le zero_le_one hv, lfoRateOfNorm_zero hN]
    · rw [show p = 1 from clamp_of_ge zero_le_one hv, lfoRateOfNorm_one hN]
    · rw [State.num, hformat]
      exact Config.num_closeConstants.ln500_close
  · show s.withParams (Params.setLfoRateNorm (Numerics.reference next) (operandQ val) s.params) = _
    rw [Params.setLfoRateNorm_eq, clamp_lfoRateOfNorm_reference next (clamp_unit _)]
    rfl

/-! ## A write twice is a write once (R265) -/

section

variable {X : Type} [Field X] [LinearOrder X] (N : Numerics X)

/-- The bound of CUTOFF reads the filter type, which the write does not touch (R272). -/
theorem Params.setCutoff_setCutoff (sr : SampleRate) (v : X) (P : Params X) :
    Params.setCutoff N sr v (Params.setCutoff N sr v P) = Params.setCutoff N sr v P := rfl

/-- The bound of RESONANCE reads the filter type, which the write does not touch (R273). -/
theorem Params.setResonance_setResonance (v : X) (P : Params X) :
    Params.setResonance v (Params.setResonance v P) = Params.setResonance v P := rfl

variable [FloorRing X]

/-- What a SETP stores depends on its operand and, in two registers, on the filter type; never on the register that it
writes. -/
theorem command_setp_command_setp {i : Instr} (hi : opField (encode i) = 0x06) (s : StateOf X) :
    command i N (command i N s) = command i N s := by
  cases i with
  | setpCutoff val => exact congrArg s.withParams (Params.setCutoff_setCutoff N s.cfg.sr _ s.params)
  | setpResonance val => exact congrArg s.withParams (Params.setResonance_setResonance _ s.params)
  | nop | tick | noteOn | noteOff | allNotesOff | loadPreset | lfoSync | fxClear => simp [encode] at hi
  | _ => rfl

end

/-- Settles O18: a write keeps the configuration and so the number format, and a second write stores the same value. -/
theorem setpIsIdempotent : Obligations.SetpIsIdempotent := by
  intro i s t hi h
  obtain ⟨P, hP⟩ := exec_setp hi s
  have hnum : t.num = s.num := by cases hP.symm.trans h; rfl
  cases (exec_eq_command i s).symm.trans h
  rw [exec_eq_command, hnum, command_setp_command_setp s.num hi]

end Sys2Proof.Machine

/-! Proofs of the family 60_exceptions: a step with no command (O8), with the lemmas it rests on. -/

namespace Sys2Proof.Machine

/-- With nothing sent the state is held (R334). -/
theorem step_of_stream_nil {s : State} (h : s.stream = []) : step s = .next s := by
  simp only [step, h]

/-- A reset event is consumed, and the rest of the state is the reset state (R340). -/
theorem step_of_stream_reset {s : State} {c : Cfg Scalar} {rest : List (HostEvent Scalar)}
    (h : s.stream = .reset c :: rest) :
    step s = .next { StateOf.assertReset { s.toStateOf with stream := rest } c with } := by
  simp only [step, h]

/-- Settles O8: the step's first two branches; an asserted reset keeps the host's side of the state. -/
theorem stepWithoutCommand : Obligations.StepWithoutCommand :=
  ⟨fun _ => step_of_stream_nil, fun _ _ _ => step_of_stream_reset⟩

end Sys2Proof.Machine
